-- ==== Sys2Proof/Word.lean ====
section
/-! DEFINITION. The types of value the core holds (00_scope.md R5, R16): words, bytes, blocks and subkey tables. Types only:
every operation on them is in a file under Machine/. -/

namespace Sys2Proof

/-- "Word: an unsigned 16-bit value" (00_scope.md R16, `WORD` of R5). -/
abbrev Word := BitVec 16

/-- One byte of a buffer or of `BB` (20_memory.md R60). -/
abbrev Byte := BitVec 8

/-- "SubkeyTable: ordered sequence of exactly 52 unsigned 16-bit words" (00_scope.md R16, `NSUBKEYS` of R5). -/
abbrev SubkeyTable := Vector Word 52

/-- "Block: fixed 8-byte (4×16-bit-word) unit the transform operates on" (00_scope.md R16; the words `x1..x4` of
43_block_transform.md R200). -/
structure Block where
  x1 : Word
  x2 : Word
  x3 : Word
  x4 : Word
deriving DecidableEq, Repr

/-- The six subkeys `(z1, z2, z3, z4, z5, z6)` a round consumes (43_block_transform.md R200). -/
structure RoundKeys where
  z1 : Word
  z2 : Word
  z3 : Word
  z4 : Word
  z5 : Word
  z6 : Word
deriving DecidableEq, Repr

/-- The four subkeys `(z1, z2, z3, z4)` the output transformation consumes (43_block_transform.md R202). -/
structure OutputKeys where
  z1 : Word
  z2 : Word
  z3 : Word
  z4 : Word
deriving DecidableEq, Repr

end Sys2Proof
end

