-- ==== Sys2Proof/Syntax.lean ====
section
/-! DEFINITION. The commands of QBL-CMD version 1: one constructor per row of spec/opcode_table.json (30_encoding.md R92). -/

namespace Sys2Proof

/-- A command of the core. The table select `t` is part of the constructor, as the opcode table has one row for each value of
`t` (30_encoding.md R92, R93); the round number `r` is "an unsigned number 0 to 7, all eight values legal" (R94). -/
inductive Instr where
  /-- MULMOD, 40_modular_arithmetic.md R129. -/
  | mulmod
  /-- MULINV, 40_modular_arithmetic.md R132. -/
  | mulinv
  /-- B2W, 41_codec.md R144. -/
  | b2w
  /-- W2B, 41_codec.md R145. -/
  | w2b
  /-- PAD, 41_codec.md R149. -/
  | pad
  /-- UNPAD, 41_codec.md R153. -/
  | unpad
  /-- KEXPE, 42_key_scheduler.md R179. -/
  | kexpe
  /-- KEXPD, 42_key_scheduler.md R180. -/
  | kexpd
  /-- NEW, 42_key_scheduler.md R181. -/
  | new
  /-- ROUND.E r, 43_block_transform.md R201. -/
  | roundE (r : Fin 8)
  /-- ROUND.D r, 43_block_transform.md R201. -/
  | roundD (r : Fin 8)
  /-- OUTXF.E, 43_block_transform.md R203. -/
  | outxfE
  /-- OUTXF.D, 43_block_transform.md R203. -/
  | outxfD
  /-- XFORM.E, 43_block_transform.md R206. -/
  | xformE
  /-- XFORM.D, 43_block_transform.md R206. -/
  | xformD
  /-- ENC, 44_cipher_facade.md R231. -/
  | enc
  /-- DEC, 44_cipher_facade.md R233. -/
  | dec
deriving DecidableEq, Repr

end Sys2Proof
end

