-- ==== Sys2Proof/Decode.lean ====
section
/-! DEFINITION. The decoder of 30_encoding.md R101 and the encoder of R92: a command is exactly one 16-bit word (R90, R97). -/

namespace Sys2Proof

/-- Why a word selects no command (30_encoding.md R95). -/
inductive Reserved where
  /-- Bits 7:4 are not all 0. -/
  | zNotZero
  /-- A C0 word with `t ≠ 0` or `r ≠ 0`. -/
  | fieldInC0
  /-- A CT word with `r ≠ 0`. -/
  | roundInCT
  /-- The opcode is none of the 14. -/
  | noSuchOpcode
deriving DecidableEq, Repr

/-- Field `op`, bits 15:8 (30_encoding.md R90). -/
def fieldOp (c : Word) : BitVec 8 := c.extractLsb' 8 8

/-- Field `z`, bits 7:4, which must be 0 (30_encoding.md R90). -/
def fieldZ (c : Word) : BitVec 4 := c.extractLsb' 4 4

/-- Field `t`, bit 3, the table select (30_encoding.md R90, R93). -/
def fieldT (c : Word) : BitVec 1 := c.extractLsb' 3 1

/-- Field `r`, bits 2:0, the round number (30_encoding.md R90, R94). -/
def fieldR (c : Word) : BitVec 3 := c.extractLsb' 0 3

/-- Format C0: `t` and `r` must be 0 (30_encoding.md R91). -/
def decodeC0 (c : Word) (i : Instr) : Except Reserved Instr :=
  if fieldT c ≠ 0 ∨ fieldR c ≠ 0 then .error .fieldInC0 else .ok i

/-- Format CT: `r` must be 0 and `t` selects (30_encoding.md R91). -/
def decodeCT (c : Word) (e d : Instr) : Except Reserved Instr :=
  if fieldR c ≠ 0 then .error .roundInCT else if fieldT c = 0 then .ok e else .ok d

/-- Format CR: `t` selects and every `r` is legal (30_encoding.md R91, R94). -/
def decodeCR (c : Word) (e d : Fin 8 → Instr) : Except Reserved Instr :=
  if fieldT c = 0 then .ok (e (fieldR c).toFin) else .ok (d (fieldR c).toFin)

/-- 30_encoding.md R101, test for test: "Decode is a total function from 16-bit words to commands". -/
def decode (c : Word) : Except Reserved Instr :=
  if fieldZ c ≠ 0 then .error .zNotZero
  else match fieldOp c with
    | 0x10#8 => decodeC0 c .mulmod
    | 0x11#8 => decodeC0 c .mulinv
    | 0x20#8 => decodeC0 c .b2w
    | 0x21#8 => decodeC0 c .w2b
    | 0x22#8 => decodeC0 c .pad
    | 0x23#8 => decodeC0 c .unpad
    | 0x30#8 => decodeC0 c .kexpe
    | 0x31#8 => decodeC0 c .kexpd
    | 0x32#8 => decodeC0 c .new
    | 0x40#8 => decodeCR c .roundE .roundD
    | 0x41#8 => decodeCT c .outxfE .outxfD
    | 0x42#8 => decodeCT c .xformE .xformD
    | 0x50#8 => decodeC0 c .enc
    | 0x51#8 => decodeC0 c .dec
    | _ => .error .noSuchOpcode

/-- The command word of the given fields, `z` being 0 (30_encoding.md R90). -/
def commandWord (op : BitVec 8) (t : BitVec 1) (r : BitVec 3) : Word := op ++ 0#4 ++ t ++ r

/-- The word of a command, from the opcode map of 30_encoding.md R92. -/
def encode : Instr → Word
  | .mulmod => commandWord 0x10 0 0
  | .mulinv => commandWord 0x11 0 0
  | .b2w => commandWord 0x20 0 0
  | .w2b => commandWord 0x21 0 0
  | .pad => commandWord 0x22 0 0
  | .unpad => commandWord 0x23 0 0
  | .kexpe => commandWord 0x30 0 0
  | .kexpd => commandWord 0x31 0 0
  | .new => commandWord 0x32 0 0
  | .roundE r => commandWord 0x40 0 (BitVec.ofFin r)
  | .roundD r => commandWord 0x40 1 (BitVec.ofFin r)
  | .outxfE => commandWord 0x41 0 0
  | .outxfD => commandWord 0x41 1 0
  | .xformE => commandWord 0x42 0 0
  | .xformD => commandWord 0x42 1 0
  | .enc => commandWord 0x50 0 0
  | .dec => commandWord 0x51 0 0

/-- The word the opcode table's numbering stands for: bit 0 is the least significant bit of the one command word, and the bits
at and above `nbits` are 0 (log 13). -/
def tableWord (nbits w : Nat) : Word := BitVec.ofNat 16 (w % 2 ^ nbits)

/-- What the decoder reads from the `nbits` bits `w`. A command has exactly 16 bits (30_encoding.md R97), so a longer row is
refused (log 13). -/
def decodeTableWord (nbits w : Nat) : Option Instr :=
  if 16 < nbits then none else (decode (tableWord nbits w)).toOption

end Sys2Proof
end

