-- ==== Sys2Proof/Machine/Flags.lean ====
section
/-! DEFINITION. The fields of `STAT` (10_state.md R28) and the codes of `ERR` (R26, 60_exceptions.md R251). The core has no
arithmetic flag and no condition code (10_state.md R25): these are all the status bits there are. -/

namespace Sys2Proof.Machine

/-- `STAT.EKV`, bit 0 (10_state.md R28). -/
def ekvBit (stat : Byte) : Bool := stat.getLsbD 0

/-- `STAT.DKV`, bit 1 (10_state.md R28). -/
def dkvBit (stat : Byte) : Bool := stat.getLsbD 1

/-- `STAT` with bit `i` made `b` and every other bit kept: bits 7:2 are "never written" (10_state.md R28). -/
def withStatBit (stat : Byte) (i : Nat) (b : Bool) : Byte :=
  if b then stat ||| (1#8 <<< i) else stat &&& ~~~(1#8 <<< i)

/-- `STAT` with `EKV` made `b`. -/
def withEkv (stat : Byte) (b : Bool) : Byte := withStatBit stat 0 b

/-- `STAT` with `DKV` made `b`. -/
def withDkv (stat : Byte) (b : Bool) : Byte := withStatBit stat 1 b

/-- The errors of 60_exceptions.md R251. -/
inductive ErrorKind where
  | invalidKeyLength
  | invalidBlockLength
  | invalidPadding
  | noKey
  | capacity
  | illegalCommand
deriving DecidableEq, Repr

/-- The code of an error (10_state.md R26). -/
def ErrorKind.code : ErrorKind → Byte
  | .invalidKeyLength => 1
  | .invalidBlockLength => 2
  | .invalidPadding => 3
  | .noKey => 4
  | .capacity => 5
  | .illegalCommand => 6

/-- The code 0, `OK`: the command succeeded (10_state.md R26). -/
def okCode : Byte := 0

end Sys2Proof.Machine
end

