-- ==== Sys2Proof/Config.lean ====
section
/-! DEFINITION. What an implementation fixes (the open parameters of 00_scope.md R6) and the values the spec leaves free. -/

namespace Sys2Proof

/-- `KS_MODE` of 00_scope.md R6: which index pattern the subkey recurrence uses (42_key_scheduler.md R172). -/
inductive KsMode where
  /-- The source's formula, normative and the default (42_key_scheduler.md R170, 90_conflicts.md C1). -/
  | doc
  /-- The named alternative, the published cipher's pattern (42_key_scheduler.md R172). -/
  | published
deriving DecidableEq, Repr

/-- The names of the registers, tables and buffers (10_state.md R20), which a platform binds to a bus. -/
inductive RegName where
  | opa | opb | res
  | x1 | x2 | x3 | x4
  | bb
  | ek | dk
  | kin | klen
  | m | mlen
  | stat | err
  | cmd
deriving DecidableEq, Repr

/-- The place of a name in the order of 10_state.md R20. -/
def RegName.index : RegName → Fin 17
  | .opa => 0
  | .opb => 1
  | .res => 2
  | .x1 => 3
  | .x2 => 4
  | .x3 => 5
  | .x4 => 6
  | .bb => 7
  | .ek => 8
  | .dk => 9
  | .kin => 10
  | .klen => 11
  | .m => 12
  | .mlen => 13
  | .stat => 14
  | .err => 15
  | .cmd => 16

/-- `regmap` of 00_scope.md R6 as plain data: the bus address of each name, in the order of `RegName.index`. The spec gives bus
addresses no width (20_memory.md R67), so they are numbers (log 8). -/
abbrev RegMap := Vector Nat 17

/-- The bus address of a name. -/
def RegMap.address (f : RegMap) (r : RegName) : Nat := f[r.index]

/-- No two names have one address. -/
abbrev RegMap.injective (f : RegMap) : Prop := ∀ i j : Fin 17, f[i] = f[j] → i = j

/-- The parameters a model "takes as an argument" (00_scope.md R6). -/
structure Config where
  /-- `MCAP`, the capacity of the message buffer M in bytes. -/
  mcap   : Nat
  /-- `KS_MODE`. -/
  ksMode : KsMode
  /-- `regmap`: "how a platform binds the named registers to a bus; no rule reads it" (R6, 20_memory.md R67). -/
  regmap : RegMap
deriving DecidableEq, Repr

/-- The legal range of `MCAP`: "a multiple of 8, 8 ≤ MCAP < 2^32" (00_scope.md R6). -/
abbrev Config.mcapWf (c : Config) : Prop := c.mcap % 8 = 0 ∧ 8 ≤ c.mcap ∧ c.mcap < 2 ^ 32

/-- The legal range of the parameters (00_scope.md R6): of `MCAP`, and of `regmap` "any injective map from register names to bus
addresses"; both values of `KS_MODE` are legal. -/
abbrev Config.wf (c : Config) : Prop := c.mcapWf ∧ c.regmap.injective

/-- DESIGN CHOICE (log 8): the bus addresses of the model's reset state, the names numbered from 0 in the order of R20. The spec
leaves `regmap` open (00_scope.md R6), and no step reads it. -/
def Config.numberedRegmap : RegMap := Vector.ofFn fun i => i.val

/-- DESIGN CHOICE (log 2, log 8): the configuration of the model's reset state. The spec leaves `MCAP` and `regmap` open and uses
4096 in its own test programs; `DOC` is the spec's default (00_scope.md R6). Every rule is modelled for every configuration. -/
def Config.specDefault : Config := { mcap := 4096, ksMode := .doc, regmap := Config.numberedRegmap }

/-- The free byte at offset `offset` of M after the reset numbered `resets`: "unspecified: any value, not cleared"
(10_state.md R40, 93_implementation_defined.md U3; log 3). It has no body, so nothing can be assumed of it. -/
opaque Config.freeMessageByte (resets offset : Nat) : Byte

/-- The free byte at offset `offset` of KIN after the reset numbered `resets` (10_state.md R40, U3; log 3). -/
opaque Config.freeKeyByte (resets offset : Nat) : Byte

end Sys2Proof
end

