-- ==== Sys2Proof/Machine/Actions.lean ====
section
/-! DEFINITION. What the host can do to the core, as plain data: the places a host names, its actions, and the table of rights
of 10_state.md R38. -/

namespace Sys2Proof.Machine

/-- A place the host can name: one register, table entry or buffer byte of 10_state.md R20. Indices are plain numbers: whether
one lies inside the shape of R20 is for `Loc.inShape`. -/
inductive Loc where
  | opa | opb | res
  | x1 | x2 | x3 | x4
  | bb (i : Nat)
  | ek (i : Nat)
  | dk (i : Nat)
  | kin (i : Nat)
  | klen
  | m (i : Nat)
  | mlen
  | stat
  | err
  | cmd
deriving DecidableEq, Repr

/-- "The host has exactly three kinds of action" (10_state.md R38): write, issue, read. RESET is "an event applied to the core
from outside" between commands (70_reset_and_hazards.md R290); it stands in the same order of events (log 5). -/
inductive HostAction where
  /-- Store a value in one host-writable place. The value is a number so that one too wide for the place can be written down
  and refused. -/
  | write (loc : Loc) (value : Nat)
  /-- Write a 16-bit word to `CMD`: the core executes it as one atomic command. -/
  | issue (c : Word)
  /-- Obtain the current value of one readable place. -/
  | read (loc : Loc)
  /-- The reset event. -/
  | reset
deriving DecidableEq, Repr

/-- What a read gave the host: the place and its value (log 1). -/
structure Reply where
  loc   : Loc
  value : Nat
deriving DecidableEq, Repr

/-- The width in bits of a place (10_state.md R20). -/
def Loc.width : Loc → Nat
  | .opa | .opb | .res | .x1 | .x2 | .x3 | .x4 | .ek _ | .dk _ | .cmd => 16
  | .bb _ | .kin _ | .klen | .m _ | .stat | .err => 8
  | .mlen => 32

/-- The place lies inside the shape of 10_state.md R20 (20_memory.md R69 for the buffers). -/
def Loc.inShape (c : Config) : Loc → Bool
  | .bb i => decide (i < 8)
  | .ek i | .dk i => decide (i < 52)
  | .kin i => decide (i < 16)
  | .m i => decide (i < c.mcap)
  | .opa | .opb | .res | .x1 | .x2 | .x3 | .x4 | .klen | .mlen | .stat | .err | .cmd => true

/-- Column "host reads" of 10_state.md R38. -/
def Loc.hostReads : Loc → Bool
  | .cmd => false
  | .opa | .opb | .res | .x1 | .x2 | .x3 | .x4 | .bb _ | .ek _ | .dk _ | .kin _ | .klen | .m _ | .mlen | .stat | .err => true

/-- Column "host writes" of 10_state.md R38; the write to `CMD` is the one that issues. -/
def Loc.hostWrites : Loc → Bool
  | .opa | .opb | .x1 | .x2 | .x3 | .x4 | .bb _ | .kin _ | .klen | .m _ | .mlen | .cmd => true
  | .res | .ek _ | .dk _ | .stat | .err => false

end Sys2Proof.Machine
end

