-- ==== Sys2Proof/Machine/State.lean ====
section
/-! DEFINITION. The state of the core (10_state.md R20, "Nothing else is state"), its reset values (R40), and the reasons a step
can stop. -/

namespace Sys2Proof.Machine

/-- A byte buffer: the bytes written since the last reset, as (offset, byte), offsets strictly rising. An offset not listed
holds its free byte (log 3, log 4). -/
abbrev Memory := List Host.Cell

/-- The one canonical form of a buffer (log 4). -/
abbrev Memory.wf (b : Memory) : Prop := b.Pairwise fun x y => x.1 < y.1

/-- There is no fault: "There is no third ending: no command hangs, traps to a handler, is partly done, or is "unpredictable""
(60_exceptions.md R250). A command's error is a next state with `ERR` set (R260; log 12). Nothing raises this; safe. -/
inductive Fault where
deriving DecidableEq, Repr

/-- Why the model makes no move. -/
inductive Refusal where
  /-- Raised by an arm of `exec` whose instruction has no meaning yet; no arm is left. Safe: nothing is claimed of it. -/
  | notModelled (mnemonic : String)
  /-- Raised by a host write to `RES`, `EK`, `DK`, `STAT` or `ERR`: "not a host action" (10_state.md R38). Safe. -/
  | writeToReadOnly (loc : Loc)
  /-- Raised by a host read of `CMD`: "not a host action" (10_state.md R38). Safe. -/
  | readOfCommandRegister
  /-- Raised by a host access outside the shape of 10_state.md R20 (20_memory.md R69). Safe. -/
  | outsideShape (loc : Loc)
  /-- Raised by a host write of a value wider than the place: a write stores "a value of the register's width"
  (10_state.md R38; log 7). Safe. -/
  | valueTooWide (loc : Loc)
deriving DecidableEq, Repr

/-- The architectural state of 10_state.md R20, and after it the model's own fields (log 1, log 2, log 3). -/
structure State where
  /-- `OPA`, first operand of MULMOD, operand of MULINV (R21). -/
  opa     : Word
  /-- `OPB`, second operand of MULMOD (R21). -/
  opb     : Word
  /-- `RES`, result of MULMOD and MULINV (R21). -/
  res     : Word
  /-- `X1`, the first word of the block (R22). -/
  x1      : Word
  /-- `X2` (R22). -/
  x2      : Word
  /-- `X3` (R22). -/
  x3      : Word
  /-- `X4`, the last word of the block (R22). -/
  x4      : Word
  /-- `BB[0..7]`, one block as bytes (R23). -/
  bb      : Vector Byte 8
  /-- `EK[0..51]`, the encryption table (R31). -/
  ek      : SubkeyTable
  /-- `DK[0..51]`, the decryption table (R32). -/
  dk      : SubkeyTable
  /-- `KIN[0..15]`, the key input buffer (R35). -/
  kin     : Memory
  /-- `KLEN`, how many key bytes the host offers (R30). -/
  klen    : Byte
  /-- `M[0..MCAP-1]`, the message buffer (R35). -/
  m       : Memory
  /-- `MLEN`, the length of the message in bytes (R29). -/
  mlen    : BitVec 32
  /-- `STAT`: bit 0 `EKV`, bit 1 `DKV`, bits 7:2 reserved (R28). -/
  stat    : Byte
  /-- `ERR`, the outcome of the last command (R26). -/
  err     : Byte
  /-- The model's own: the parameters of 00_scope.md R6, which no step changes (log 2). -/
  cfg     : Config
  /-- The model's own: how many resets have happened, the index of the free bytes (log 3). -/
  resets  : Nat
  /-- The model's own: the host actions still to come, the next one first (log 1). -/
  actions : List HostAction
  /-- The model's own: what the host has read, newest first (log 1). -/
  replies : List Reply
deriving DecidableEq, Repr

/-- The machine right after reset (10_state.md R40): registers, tables, `STAT`, `ERR`, `KLEN` and `MLEN` are 0; `KIN` and `M`
hold free bytes; the host has done nothing yet. -/
def State.reset : State where
  opa     := 0
  opb     := 0
  res     := 0
  x1      := 0
  x2      := 0
  x3      := 0
  x4      := 0
  bb      := Vector.replicate 8 0
  ek      := Vector.replicate 52 0
  dk      := Vector.replicate 52 0
  kin     := []
  klen    := 0
  m       := []
  mlen    := 0
  stat    := 0
  err     := 0
  cfg     := Config.specDefault
  resets  := 0
  actions := []
  replies := []

end Sys2Proof.Machine
end

