-- ==== Sys2Proof/Machine/Ops.lean ====
section
/-! DEFINITION. The named operations over buffers and registers (00_scope.md R14: `MemRead`, `MemWrite`, `REG <- v`, `done`,
`raise`), the host's store and load (10_state.md R38), and the reset event (70_reset_and_hazards.md R290). -/

namespace Sys2Proof.Machine

/-! ## Byte buffers (20_memory.md R60) -/

/-- The byte written at an offset since the last reset, if there is one. -/
def Memory.lookup : Memory → Nat → Option Byte
  | [], _ => none
  | (k, v) :: rest, a => if k = a then some v else Memory.lookup rest a

/-- The byte at an offset; `free` says what an offset not written since the last reset holds (log 3). -/
def Memory.read (free : Nat → Byte) (b : Memory) (a : Nat) : Byte := (Memory.lookup b a).getD (free a)

/-- Write one byte, keeping the canonical form. -/
def Memory.write : Memory → Nat → Byte → Memory
  | [], a, v => [(a, v)]
  | (k, w) :: rest, a, v =>
    if a < k then (a, v) :: (k, w) :: rest
    else if a = k then (a, v) :: rest
    else (k, w) :: Memory.write rest a v

/-- `MemRead(buf, a, n)`: "the `n` bytes `buf[a..a+n-1]`, in order of increasing offset" (00_scope.md R14). -/
def Memory.readRange (free : Nat → Byte) (b : Memory) : Nat → Nat → List Byte
  | _, 0 => []
  | a, n + 1 => Memory.read free b a :: Memory.readRange free b (a + 1) n

/-- `MemWrite(buf, a, n, bs)`: write the bytes `bs` from offset `a` on (00_scope.md R14). -/
def Memory.writeRange (b : Memory) : Nat → List Byte → Memory
  | _, [] => b
  | a, v :: vs => Memory.writeRange (Memory.write b a v) (a + 1) vs

/-! ## Reading the state -/

/-- Byte `M[a]`. -/
def State.messageByte (s : State) (a : Nat) : Byte := Memory.read (Config.freeMessageByte s.resets) s.m a

/-- Byte `KIN[a]`. -/
def State.keyByte (s : State) (a : Nat) : Byte := Memory.read (Config.freeKeyByte s.resets) s.kin a

/-- The message, `M[0..MLEN-1]` (10_state.md R29). -/
def State.message (s : State) : List Byte :=
  Memory.readRange (Config.freeMessageByte s.resets) s.m 0 s.mlen.toNat

/-- The 16 key bytes, `MemRead(KIN, 0, 16)` (42_key_scheduler.md R179). -/
def State.keyBytes (s : State) : Vector Byte 16 := Vector.ofFn fun i => s.keyByte i.val

/-- The block the registers `X1..X4` hold (10_state.md R22). -/
def State.block (s : State) : Block := { x1 := s.x1, x2 := s.x2, x3 := s.x3, x4 := s.x4 }

/-- `STAT.EKV = 1`. -/
def State.ekv (s : State) : Bool := ekvBit s.stat

/-- `STAT.DKV = 1`. -/
def State.dkv (s : State) : Bool := dkvBit s.stat

/-! ## Writing the state: one operation per destination of 10_state.md R39 -/

/-- `ERR <- c`. -/
def State.setErr (s : State) (c : Byte) : State := { s with err := c }

/-- `RES <- w`. -/
def State.setRes (s : State) (w : Word) : State := { s with res := w }

/-- `(X1, X2, X3, X4) <- b`, all four from values computed before any is written (20_memory.md R77). -/
def State.setBlock (s : State) (b : Block) : State := { s with x1 := b.x1, x2 := b.x2, x3 := b.x3, x4 := b.x4 }

/-- `BB[0..7] <- v`. -/
def State.setBB (s : State) (v : Vector Byte 8) : State := { s with bb := v }

/-- `EK[0..51] <- t`. -/
def State.setEK (s : State) (t : SubkeyTable) : State := { s with ek := t }

/-- `DK[0..51] <- t`. -/
def State.setDK (s : State) (t : SubkeyTable) : State := { s with dk := t }

/-- `STAT.EKV <- b`. -/
def State.setEkv (s : State) (b : Bool) : State := { s with stat := withEkv s.stat b }

/-- `STAT.DKV <- b`. -/
def State.setDkv (s : State) (b : Bool) : State := { s with stat := withDkv s.stat b }

/-- `MLEN <- n`, as a 32-bit value; every command keeps `n` in `[0, MCAP]` (10_state.md R29), so no bit is lost. -/
def State.setMlen (s : State) (n : Nat) : State := { s with mlen := BitVec.ofNat 32 n }

/-- `MemWrite(M, a, len(bs), bs)`. -/
def State.writeMessage (s : State) (a : Nat) (bs : List Byte) : State := { s with m := Memory.writeRange s.m a bs }

/-! ## The two endings of a command (60_exceptions.md R250) -/

/-- `done`: "end the command without error: `ERR <- 0`" (00_scope.md R14). -/
def State.done (s : State) : State := s.setErr okCode

/-- `raise E`, the one error entry: "On any error the only state change is `ERR <- code`" (60_exceptions.md R260). There is no
saved pc or status, no mode and no handler (R260), and no return from it (R261): the core is at once ready again. -/
def State.raise (s : State) (e : ErrorKind) : State := s.setErr e.code

/-! ## The host's store and load (10_state.md R38) -/

/-- The value as a bit vector of the place's width, or the refusal of a value wider than the place (log 7). -/
def fit (n : Nat) (loc : Loc) (v : Nat) : Except Refusal (BitVec n) :=
  if v < 2 ^ n then .ok (BitVec.ofNat n v) else .error (.valueTooWide loc)

/-- What a host write stores: "store a value of the register's width into one host-writable register, table
entry or buffer byte; it has no other effect" (10_state.md R38). "`CMD` keeps no value" (R27), so nothing is stored there; the
issue that a write to it is stands in `hostWrite`. -/
def State.hostStore (s : State) (loc : Loc) (v : Nat) : Except Refusal State :=
  match loc with
  | .opa => (fit 16 loc v).map fun w => { s with opa := w }
  | .opb => (fit 16 loc v).map fun w => { s with opb := w }
  | .x1 => (fit 16 loc v).map fun w => { s with x1 := w }
  | .x2 => (fit 16 loc v).map fun w => { s with x2 := w }
  | .x3 => (fit 16 loc v).map fun w => { s with x3 := w }
  | .x4 => (fit 16 loc v).map fun w => { s with x4 := w }
  | .bb i =>
    if h : i < 8 then (fit 8 loc v).map fun b => { s with bb := s.bb.set i b h } else .error (.outsideShape loc)
  | .kin i =>
    if i < 16 then (fit 8 loc v).map fun b => { s with kin := Memory.write s.kin i b } else .error (.outsideShape loc)
  | .klen => (fit 8 loc v).map fun b => { s with klen := b }
  | .m i =>
    if i < s.cfg.mcap then (fit 8 loc v).map fun b => { s with m := Memory.write s.m i b }
    else .error (.outsideShape loc)
  | .mlen => (fit 32 loc v).map fun w => { s with mlen := w }
  | .res | .stat | .err => .error (.writeToReadOnly loc)
  | .ek i | .dk i => if i < 52 then .error (.writeToReadOnly loc) else .error (.outsideShape loc)
  | .cmd => .ok s

/-- A host read: "obtain the current value of one readable register, table entry or buffer byte" (10_state.md R38). -/
def State.hostLoad (s : State) (loc : Loc) : Except Refusal Nat :=
  match loc with
  | .opa => .ok s.opa.toNat
  | .opb => .ok s.opb.toNat
  | .res => .ok s.res.toNat
  | .x1 => .ok s.x1.toNat
  | .x2 => .ok s.x2.toNat
  | .x3 => .ok s.x3.toNat
  | .x4 => .ok s.x4.toNat
  | .bb i => if h : i < 8 then .ok (s.bb[i]'h).toNat else .error (.outsideShape loc)
  | .ek i => if h : i < 52 then .ok (s.ek[i]'h).toNat else .error (.outsideShape loc)
  | .dk i => if h : i < 52 then .ok (s.dk[i]'h).toNat else .error (.outsideShape loc)
  | .kin i => if i < 16 then .ok (s.keyByte i).toNat else .error (.outsideShape loc)
  | .klen => .ok s.klen.toNat
  | .m i => if i < s.cfg.mcap then .ok (s.messageByte i).toNat else .error (.outsideShape loc)
  | .mlen => .ok s.mlen.toNat
  | .stat => .ok s.stat.toNat
  | .err => .ok s.err.toNat
  | .cmd => .error .readOfCommandRegister

/-! ## The reset event (70_reset_and_hazards.md R290) -/

/-- "Reset sets every piece of state to the value in 10_state.md rule R40": the bytes of `KIN` and `M` are free anew (log 5).
The parameters, the host's later actions and what it has read are not the core's state and stay. -/
def State.resetEvent (s : State) : State :=
  { State.reset with cfg := s.cfg, resets := s.resets + 1, actions := s.actions, replies := s.replies }

end Sys2Proof.Machine
end

