-- ==== Sys2Proof/Machine/Arithmetic.lean ====
section
/-! DEFINITION. 40_modular_arithmetic.md: the integer laws of the core and the commands MULMOD and MULINV. -/

namespace Sys2Proof.Machine

/-- The integer in `[1, 65536]` a word stands for under multiplication (R120). -/
def lift (w : Word) : Nat := if w = 0 then 65536 else w.toNat

/-- `low16(v) = v mod 65536` (00_scope.md R13). -/
def low16 (v : Nat) : Word := BitVec.ofNat 16 v

/-- `add16(a, b) = (a + b) mod 65536` (R121). -/
def add16 (a b : Word) : Word := a + b

/-- `neg16(a) = (65536 - a) mod 65536` (R122). -/
def neg16 (a : Word) : Word := -a

/-- `xor16(a, b) = a xor b` (R123). -/
def xor16 (a b : Word) : Word := a ^^^ b

/-- `mulMod(a, b) = low16( (lift(a) * lift(b)) mod 65537 )`, the product exact (R124, R125). -/
def mulMod (a b : Word) : Word := low16 ((lift a * lift b) % 65537)

/-- The loop of R126 on `(r0, r1, t0, t1)`; the result is `t0` when `r1` reaches 0. "The remainders strictly decrease", so
`fuel ≥ r1` passes are enough (log 9). -/
def euclidLoop : (fuel r0 r1 : Nat) → (t0 t1 : Int) → Int
  | 0, _, _, t0, _ => t0
  | fuel + 1, r0, r1, t0, t1 =>
    if r1 = 0 then t0 else euclidLoop fuel r1 (r0 - r0 / r1 * r1) t1 (t0 - (r0 / r1 : Nat) * t1)

/-- The final coefficient of `a`, "normalized ... by adding the modulus if negative" (R126). -/
def euclidCoefficient (a : Nat) : Int :=
  let t0 := euclidLoop a 65537 a 0 1
  if t0 < 0 then t0 + 65537 else t0

/-- `euclidInverse(a)` for `a` in `[2, 65535]` (R126). -/
def euclidInverse (a : Word) : Word := low16 (euclidCoefficient a.toNat).toNat

/-- `mulInverse(a)`: "0 and 1 are self-inverse" (R127). -/
def mulInverse (a : Word) : Word := if a = 0 then 0 else if a = 1 then 1 else euclidInverse a

/-- MULMOD (R129). -/
def execMulmod (s : State) : Host.Outcome State Fault Refusal := .next (s.setRes (mulMod s.opa s.opb)).done

/-- MULINV (R132). -/
def execMulinv (s : State) : Host.Outcome State Fault Refusal := .next (s.setRes (mulInverse s.opa)).done

end Sys2Proof.Machine
end

