-- ==== Sys2Proof/Machine/Operands.lean ====
section
/-! DEFINITION. The operand forms of the commands: the table select `t` (30_encoding.md R93), the round number `r` (R94), and the
entries of the selected table each stage reads (43_block_transform.md R205). -/

namespace Sys2Proof.Machine

/-- Field `t`: 0 selects `EK`, 1 selects `DK` (30_encoding.md R93). -/
inductive TableSelect where
  | e
  | d
deriving DecidableEq, Repr

/-- `T = EK` if `t = 0`, `DK` if `t = 1` (43_block_transform.md R201). -/
def State.table (s : State) : TableSelect → SubkeyTable
  | .e => s.ek
  | .d => s.dk

/-- The valid bit a command with this `t` requires (30_encoding.md R93). -/
def State.tableValid (s : State) : TableSelect → Bool
  | .e => s.ekv
  | .d => s.dkv

/-- `T[6r .. 6r+5]`, the subkeys of round `r` (30_encoding.md R94, 43_block_transform.md R201). -/
def roundKeys (t : SubkeyTable) (r : Fin 8) : RoundKeys where
  z1 := t[6 * r.val]
  z2 := t[6 * r.val + 1]
  z3 := t[6 * r.val + 2]
  z4 := t[6 * r.val + 3]
  z5 := t[6 * r.val + 4]
  z6 := t[6 * r.val + 5]

/-- `T[48..51]`, the subkeys of the output transformation (43_block_transform.md R203). -/
def outputKeys (t : SubkeyTable) : OutputKeys where
  z1 := t[48]
  z2 := t[49]
  z3 := t[50]
  z4 := t[51]

/-- What ROUND, OUTXF and XFORM share (43_block_transform.md R201, R203, R206): `NoKey` when the selected table is not valid;
else `X1..X4` become `f` of the table and their old values. -/
def State.blockCommand (s : State) (t : TableSelect) (f : SubkeyTable → Block → Block) : State :=
  if s.tableValid t then (s.setBlock (f (s.table t) s.block)).done else s.raise .noKey

end Sys2Proof.Machine
end

