-- ==== Sys2Proof/Machine/BlockTransform.lean ====
section
/-! DEFINITION. 43_block_transform.md: the round, the output transformation, the whole transform, and the commands ROUND, OUTXF
and XFORM. -/

namespace Sys2Proof.Machine

/-- The nine steps of R200. -/
def blockRound (x : Block) (z : RoundKeys) : Block :=
  let y1 := mulMod x.x1 z.z1
  let y2 := add16 x.x2 z.z2
  let y3 := add16 x.x3 z.z3
  let y4 := mulMod x.x4 z.z4
  let u := mulMod (xor16 y1 y3) z.z5
  let t1 := mulMod (add16 u (xor16 y2 y4)) z.z6
  let t2 := add16 t1 u
  { x1 := xor16 y1 t1, x2 := xor16 y3 t1, x3 := xor16 y2 t2, x4 := xor16 y4 t2 }

/-- The output transformation of R202: `x3` goes with the second subkey and `x2` with the third. -/
def outxf (x : Block) (z : OutputKeys) : Block :=
  { x1 := mulMod x.x1 z.z1, x2 := add16 x.x3 z.z2, x3 := add16 x.x2 z.z3, x4 := mulMod x.x4 z.z4 }

/-- The first `n` rounds of `transform`; the key index before round `r` is `k = 6*r` (R204, R205). -/
def rounds (t : SubkeyTable) (x : Block) : (n : Nat) → n ≤ 8 → Block
  | 0, _ => x
  | n + 1, h => blockRound (rounds t x n (Nat.le_of_succ_le h)) (roundKeys t ⟨n, h⟩)

/-- `transform(block, keys)` (R204): eight rounds, then the output transformation. It is irreducible so that no proof unfolds
eight rounds by accident; `unfold` and the kernel see through it. -/
@[irreducible] def transform (t : SubkeyTable) (x : Block) : Block := outxf (rounds t x 8 (Nat.le_refl 8)) (outputKeys t)

/-- ROUND.E r (R201). -/
def execRoundE (r : Fin 8) (s : State) : Host.Outcome State Fault Refusal :=
  .next (s.blockCommand .e fun t x => blockRound x (roundKeys t r))

/-- ROUND.D r (R201). -/
def execRoundD (r : Fin 8) (s : State) : Host.Outcome State Fault Refusal :=
  .next (s.blockCommand .d fun t x => blockRound x (roundKeys t r))

/-- OUTXF.E (R203). -/
def execOutxfE (s : State) : Host.Outcome State Fault Refusal :=
  .next (s.blockCommand .e fun t x => outxf x (outputKeys t))

/-- OUTXF.D (R203). -/
def execOutxfD (s : State) : Host.Outcome State Fault Refusal :=
  .next (s.blockCommand .d fun t x => outxf x (outputKeys t))

/-- XFORM.E (R206). -/
def execXformE (s : State) : Host.Outcome State Fault Refusal := .next (s.blockCommand .e transform)

/-- XFORM.D (R206). -/
def execXformD (s : State) : Host.Outcome State Fault Refusal := .next (s.blockCommand .d transform)

end Sys2Proof.Machine
end

