-- ==== Sys2Proof/Machine/Codec.lean ====
section
/-! DEFINITION. 41_codec.md: bytes and words, padding, and the commands B2W, W2B, PAD and UNPAD. -/

namespace Sys2Proof.Machine

/-! ## Byte and word marshalling, the one place where the byte order is decided (20_memory.md R61) -/

/-- `b0*256 + b1`, the byte at the lower offset being the high byte (R140). -/
def wordOfBytes (b0 b1 : Byte) : Word := b0 ++ b1

/-- `w[15:8]` (R141). -/
def highByte (w : Word) : Byte := w.extractLsb' 8 8

/-- `w[7:0]` (R141). -/
def lowByte (w : Word) : Byte := w.extractLsb' 0 8

/-- `bytesToWords(bs)[i] = bs[2i]*256 + bs[2i+1]` (R140). The length is `2n` by type: R143 gives an odd one no meaning
(log 10). -/
def bytesToWords {n : Nat} (bs : Vector Byte (2 * n)) : Vector Word n :=
  Vector.ofFn fun i => wordOfBytes bs[2 * i.val] bs[2 * i.val + 1]

/-- `wordsToBytes(ws)[2i] = ws[i][15:8]`, `wordsToBytes(ws)[2i+1] = ws[i][7:0]` (R141). -/
def wordsToBytes {n : Nat} (ws : Vector Word n) : Vector Byte (2 * n) :=
  Vector.ofFn fun j => if j.val % 2 = 0 then highByte ws[j.val / 2] else lowByte ws[j.val / 2]

/-- Four words as a block, in order (10_state.md R22). -/
def blockOfWords (ws : Vector Word 4) : Block := { x1 := ws[0], x2 := ws[1], x3 := ws[2], x4 := ws[3] }

/-- A block as four words, in order. -/
def wordsOfBlock (b : Block) : Vector Word 4 := #v[b.x1, b.x2, b.x3, b.x4]

/-- Eight bytes as a block (R144). -/
def blockOfBytes (bs : Vector Byte 8) : Block := blockOfWords (bytesToWords (n := 4) bs)

/-- A block as eight bytes (R145). -/
def bytesOfBlock (b : Block) : Vector Byte 8 := wordsToBytes (n := 4) (wordsOfBlock b)

/-! ## Padding -/

/-- `n = blockSize - (L mod blockSize)` with `blockSize = 8`, in `[1, 8]` (R146; the dead test `n = 0` is left out, R147). -/
def padCount (len : Nat) : Nat := 8 - len % 8

/-- `n` bytes, each of value `n` (R146). -/
def padding (n : Nat) : List Byte := List.replicate n (BitVec.ofNat 8 n)

/-- `pad(bs) = bs ++ [n]*n` (R146). -/
def pad (bs : List Byte) : List Byte := bs ++ padding (padCount bs.length)

/-- The tests of `unpad` (R150, R151): the count `n` the last byte gives when the padding is valid, `none` for
`InvalidPadding`. -/
def paddingCount (bs : List Byte) : Option Nat :=
  match bs.getLast? with
  | none => none
  | some last =>
    let n := last.toNat
    if n < 1 ∨ 8 < n then none
    else if bs.length < n then none
    else if (bs.drop (bs.length - n)).any (fun b => b ≠ last) then none
    else some n

/-- `unpad(bs)`, `none` for `InvalidPadding` (R150). -/
def unpad (bs : List Byte) : Option (List Byte) := (paddingCount bs).map fun n => bs.take (bs.length - n)

/-! ## The commands -/

/-- B2W (R144). -/
def execB2w (s : State) : Host.Outcome State Fault Refusal := .next (s.setBlock (blockOfBytes s.bb)).done

/-- W2B (R145). -/
def execW2b (s : State) : Host.Outcome State Fault Refusal := .next (s.setBB (bytesOfBlock s.block)).done

/-- PAD (R149). -/
def execPad (s : State) : Host.Outcome State Fault Refusal :=
  let len := s.mlen.toNat
  let n := padCount len
  if s.cfg.mcap < len then .next (s.raise .capacity)
  else if s.cfg.mcap < len + n then .next (s.raise .capacity)
  else .next ((s.writeMessage len (padding n)).setMlen (len + n)).done

/-- UNPAD (R153). The tests of `paddingCount` on the message are the tests of R153 in their order: the empty message, the range
of the last byte, `MLEN < n`, the last `n` bytes. -/
def execUnpad (s : State) : Host.Outcome State Fault Refusal :=
  let len := s.mlen.toNat
  if s.cfg.mcap < len then .next (s.raise .capacity)
  else match paddingCount s.message with
    | none => .next (s.raise .invalidPadding)
    | some n => .next (s.setMlen (len - n)).done

end Sys2Proof.Machine
end

