-- ==== Sys2Proof/Machine/CipherFacade.lean ====
section
/-! DEFINITION. 44_cipher_facade.md: whole messages, and the commands ENC and DEC. -/

namespace Sys2Proof.Machine

/-- Each 8-byte block of a byte sequence through `transform`, in index order (R230, R232, R237; log 11). Both callers give it a
multiple of 8 bytes (`pad` and the length test of R232), so the last case is reached with no byte left. -/
def transformBlocks (t : SubkeyTable) : List Byte → List Byte
  | b0 :: b1 :: b2 :: b3 :: b4 :: b5 :: b6 :: b7 :: rest =>
    (bytesOfBlock (transform t (blockOfBytes #v[b0, b1, b2, b3, b4, b5, b6, b7]))).toList ++ transformBlocks t rest
  | _ => []

/-- `encryptBytes(bs, ek)` (R230): "empty input maps to empty output". -/
def encryptBytes (ek : SubkeyTable) (bs : List Byte) : List Byte := if bs = [] then [] else transformBlocks ek (pad bs)

/-- `decryptBytes(cs, dk)` (R232), with its two failures. -/
def decryptBytes (dk : SubkeyTable) (cs : List Byte) : Except ErrorKind (List Byte) :=
  if cs.length = 0 ∨ cs.length % 8 ≠ 0 then .error .invalidBlockLength
  else match unpad (transformBlocks dk cs) with
    | none => .error .invalidPadding
    | some bs => .ok bs

/-- ENC (R231). -/
def execEnc (s : State) : Host.Outcome State Fault Refusal :=
  let len := s.mlen.toNat
  let lp := len + padCount len
  if s.ekv = false then .next (s.raise .noKey)
  else if s.cfg.mcap < len then .next (s.raise .capacity)
  else if len = 0 then .next s.done
  else if s.cfg.mcap < lp then .next (s.raise .capacity)
  else .next ((s.writeMessage 0 (encryptBytes s.ek s.message)).setMlen lp).done

/-- DEC (R233): the decrypted copy `p` is hidden until the padding test has passed (60_exceptions.md R272). -/
def execDec (s : State) : Host.Outcome State Fault Refusal :=
  let len := s.mlen.toNat
  let p := transformBlocks s.dk s.message
  if s.dkv = false then .next (s.raise .noKey)
  else if s.cfg.mcap < len then .next (s.raise .capacity)
  else if len = 0 ∨ len % 8 ≠ 0 then .next (s.raise .invalidBlockLength)
  else match paddingCount p with
    | none => .next (s.raise .invalidPadding)
    | some n => .next ((s.writeMessage 0 p).setMlen (len - n)).done

end Sys2Proof.Machine
end

