-- ==== Sys2Proof/Machine/KeyScheduler.lean ====
section
/-! DEFINITION. 42_key_scheduler.md: the two derivations and the commands KEXPE, KEXPD and NEW. -/

namespace Sys2Proof.Machine

/-- `((a << 9) or (b >> 7)) and 0xFFFF` (R170): bits 15:9 are `a[6:0]`, bits 8:0 are `b[15:7]`. -/
def keyWindow (a b : Word) : Word := (a <<< 9) ||| (b >>> 7)

/-- The next subkey `k[i]`, `i = 8 + n`, from the entries `k[0..i-1]` (R170; R172 under `KS_MODE = PUBLISHED`). -/
def nextSubkey (mode : KsMode) {n : Nat} (k : Vector Word (8 + n)) : Word :=
  let i := 8 + n
  match mode with
  | .doc => keyWindow k[i - 8] k[i - 7]
  | .published =>
    if i % 8 < 6 then keyWindow k[i - 7] k[i - 6]
    else if i % 8 = 6 then keyWindow k[i - 7] k[i - 14]
    else keyWindow k[i - 15] k[i - 14]

/-- The growing key stream: the first eight words and `n` further subkeys, each computed from those before it (R170). -/
def expandKeys (mode : KsMode) (first : Vector Word 8) : (n : Nat) → Vector Word (8 + n)
  | 0 => first
  | n + 1 => (expandKeys mode first n).push (nextSubkey mode (expandKeys mode first n))

/-- `deriveEncryptionKeys(key)` (R170, R172): "first 8 subkeys are the 8 big-endian 16-bit words of the key, in order", then 44
steps of the recurrence. It is irreducible so that no proof unfolds 52 entries by accident; `unfold` and the kernel see
through it. -/
@[irreducible] def deriveEncryptionKeys (mode : KsMode) (key : Vector Byte 16) : SubkeyTable :=
  expandKeys mode (bytesToWords (n := 8) key) 44

/-- `dk[i]` of R174. Group `g = i / 6` is round `g + 1` of decryption (or, for `g = 8`, its output transformation) and takes its
key-input subkeys from `ek[e..e+3]`, `e = 6*(8-g)`, and its mixing pair from `ek[e-2], ek[e-1]`; the two additive subkeys
change places in all groups but the first and the last. -/
def decryptionSubkey (ek : SubkeyTable) (i : Fin 52) : Word :=
  let g := i.val / 6
  let e := 6 * (8 - g)
  have hi : i.val < 52 := i.isLt
  match i.val % 6 with
  | 0 => mulInverse (ek[e]'(by omega))
  | 1 => if g = 0 ∨ g = 8 then neg16 (ek[e + 1]'(by omega)) else neg16 (ek[e + 2]'(by omega))
  | 2 => if g = 0 ∨ g = 8 then neg16 (ek[e + 2]'(by omega)) else neg16 (ek[e + 1]'(by omega))
  | 3 => mulInverse (ek[e + 3]'(by omega))
  | 4 => ek[e - 2]'(by omega)
  | _ => ek[e - 1]'(by omega)

/-- `deriveDecryptionKeys(ek)` (R174); irreducible as `deriveEncryptionKeys` is. -/
@[irreducible] def deriveDecryptionKeys (ek : SubkeyTable) : SubkeyTable := Vector.ofFn (decryptionSubkey ek)

/-- The encryption table the offered key gives. -/
def State.derivedEK (s : State) : SubkeyTable := deriveEncryptionKeys s.cfg.ksMode s.keyBytes

/-- KEXPE (R179). -/
def execKexpe (s : State) : Host.Outcome State Fault Refusal :=
  if s.klen ≠ 16 then .next (s.raise .invalidKeyLength)
  else .next (((s.setEK s.derivedEK).setEkv true).setDkv false).done

/-- KEXPD (R180). -/
def execKexpd (s : State) : Host.Outcome State Fault Refusal :=
  if s.ekv = false then .next (s.raise .noKey)
  else .next ((s.setDK (deriveDecryptionKeys s.ek)).setDkv true).done

/-- NEW (R181). -/
def execNew (s : State) : Host.Outcome State Fault Refusal :=
  if s.klen ≠ 16 then .next (s.raise .invalidKeyLength)
  else .next ((((s.setEK s.derivedEK).setDK (deriveDecryptionKeys s.derivedEK)).setEkv true).setDkv true).done

end Sys2Proof.Machine
end

