-- ==== Sys2Proof/Machine/Dispatch.lean ====
section
/-! DEFINITION. Which meaning runs which command: one arm per constructor of `Instr`. -/

namespace Sys2Proof.Machine

def exec (i : Instr) (s : State) : Host.Outcome State Fault Refusal :=
  match i with
  | .mulmod => Sys2Proof.Machine.execMulmod s
  | .mulinv => Sys2Proof.Machine.execMulinv s
  | .b2w => Sys2Proof.Machine.execB2w s
  | .w2b => Sys2Proof.Machine.execW2b s
  | .pad => Sys2Proof.Machine.execPad s
  | .unpad => Sys2Proof.Machine.execUnpad s
  | .kexpe => Sys2Proof.Machine.execKexpe s
  | .kexpd => Sys2Proof.Machine.execKexpd s
  | .new => Sys2Proof.Machine.execNew s
  | .roundE r => Sys2Proof.Machine.execRoundE r s
  | .roundD r => Sys2Proof.Machine.execRoundD r s
  | .outxfE => Sys2Proof.Machine.execOutxfE s
  | .outxfD => Sys2Proof.Machine.execOutxfD s
  | .xformE => Sys2Proof.Machine.execXformE s
  | .xformD => Sys2Proof.Machine.execXformD s
  | .enc => Sys2Proof.Machine.execEnc s
  | .dec => Sys2Proof.Machine.execDec s

end Sys2Proof.Machine
end

