-- ==== Sys2Proof/Machine/HostPort.lean ====
section
/-! DEFINITION. The host's port: issue and decode (30_encoding.md R100), and one host action (10_state.md R38). -/

namespace Sys2Proof.Machine

/-- "A host write of a word `c` to `CMD` is the issue of command `c`" (30_encoding.md R100): the core decodes it and executes
the command; a reserved word is an `IllegalCommand` error (R95, 60_exceptions.md R257). -/
def issueCommand (c : Word) (s : State) : Host.Outcome State Fault Refusal :=
  match decode c with
  | .ok i => exec i s
  | .error _ => .next (s.raise .illegalCommand)

/-- A host write. "A host write has no effect beyond storing its value, with one exception: a write to `CMD` issues a command"
(20_memory.md R66). -/
def hostWrite (loc : Loc) (v : Nat) (s : State) : Host.Outcome State Fault Refusal :=
  if loc = .cmd then
    match fit 16 loc v with
    | .ok c => issueCommand c s
    | .error r => .refused r
  else
    match s.hostStore loc v with
    | .ok t => .next t
    | .error r => .refused r

/-- A host read: it "changes nothing" (10_state.md R38) of the core; the host has its value (log 1). -/
def hostRead (loc : Loc) (s : State) : Host.Outcome State Fault Refusal :=
  match s.hostLoad loc with
  | .ok v => .next { s with replies := { loc := loc, value := v } :: s.replies }
  | .error r => .refused r

/-- One event of the total order of 20_memory.md R70. -/
def perform (a : HostAction) (s : State) : Host.Outcome State Fault Refusal :=
  match a with
  | .write loc v => hostWrite loc v s
  | .issue c => issueCommand c s
  | .read loc => hostRead loc s
  | .reset => .next s.resetEvent

/-- The next event: the host's next action, or, when the host does nothing, none: the core "is idle and keeps its state"
(60_exceptions.md R270, R266). -/
def nextEvent (s : State) : Host.Outcome State Fault Refusal :=
  match s.actions with
  | [] => .next s
  | a :: rest => perform a { s with actions := rest }

end Sys2Proof.Machine
end

