-- ==== Sys2Proof/Machine/Step.lean ====
section
/-! DEFINITION. One step of the core, and how a command word comes to be the next one. -/

namespace Sys2Proof.Machine

/-- One step: the next event of the total order of 20_memory.md R70. -/
def step (s : State) : Host.Outcome State Fault Refusal := nextEvent s

/-- The state in which the host's next action is to issue the given word. The core "stores no program" (30_encoding.md R100), so
this stands for the host's side, and changes nothing of the core's own state (log 1, log 13). -/
def State.withFetchWord (s : State) (nbits w : Nat) : State :=
  { s with actions := .issue (tableWord nbits w) :: s.actions }

end Sys2Proof.Machine
end

