-- ==== Sys2Proof/Safety.lean ====
section
/-! DEFINITION. The terms claims are stated in: the invariants of the core, what a command may write, and runs of several
commands. -/

namespace Sys2Proof.Machine

/-! ## Invariants -/

/-- Both buffers are in their canonical form and list only offsets of their space (20_memory.md R60). -/
structure MemoryInv (s : State) : Prop where
  messageSorted : Memory.wf s.m
  keySorted     : Memory.wf s.kin
  messageBound  : ∀ x ∈ s.m, x.1 < s.cfg.mcap
  keyBound      : ∀ x ∈ s.kin, x.1 < 16

/-- `STAT` bits 7:2 read as 0 (10_state.md R28) and `ERR` holds one of the codes 0 to 6 (R26). -/
structure StatusInv (s : State) : Prop where
  reservedZero : ∀ i, 2 ≤ i → s.stat.getLsbD i = false
  errKnown     : s.err.toNat ≤ 6

/-- The invariants (a), (b), (c) of 42_key_scheduler.md R183. -/
structure KeyInv (s : State) : Prop where
  dkvEkv : s.dkv = true → s.ekv = true
  ekvEK  : s.ekv = true → ∃ key : Vector Byte 16, s.ek = deriveEncryptionKeys s.cfg.ksMode key
  dkvDK  : s.dkv = true → s.dk = deriveDecryptionKeys s.ek

/-! ## What a command may write -/

/-- The errors a command can report (60_exceptions.md R251). -/
def errorsOf : Instr → List ErrorKind
  | .mulmod | .mulinv | .b2w | .w2b => []
  | .pad => [.capacity]
  | .unpad => [.capacity, .invalidPadding]
  | .kexpe | .new => [.invalidKeyLength]
  | .kexpd | .roundE _ | .roundD _ | .outxfE | .outxfD | .xformE | .xformD => [.noKey]
  | .enc => [.noKey, .capacity]
  | .dec => [.noKey, .capacity, .invalidBlockLength, .invalidPadding]

/-- The parts of the state that are no place of the spec's: the parameters, the reset count, the host's later actions and what
it has read. -/
def SameModelFields (s t : State) : Prop :=
  t.cfg = s.cfg ∧ t.resets = s.resets ∧ t.actions = s.actions ∧ t.replies = s.replies

/-- Every place the host can name outside `written` reads as before: registers, table entries, status registers and every byte
of `BB`, `KIN` and `M`. -/
def SameOutside (written : Loc → Prop) (s t : State) : Prop :=
  SameModelFields s t ∧ ∀ loc, ¬ written loc → t.hostLoad loc = s.hostLoad loc

/-- `t` is `s` after an error: only `ERR` changed (60_exceptions.md R260). -/
def OnlyErrSet (e : ErrorKind) (s t : State) : Prop := t.err = e.code ∧ SameOutside (· = .err) s t

/-! ## The parameter no rule reads -/

/-- The same state on a platform with another `regmap` (00_scope.md R6). -/
def State.withRegmap (s : State) (f : RegMap) : State := { s with cfg := { s.cfg with regmap := f } }

/-- An outcome with its next state, if there is one, changed by `f`. -/
def mapNext (f : State → State) : Host.Outcome State Fault Refusal → Host.Outcome State Fault Refusal
  | .next t => .next (f t)
  | .fault e => .fault e
  | .refused r => .refused r

/-! ## Several commands in a row -/

/-- The commands in order, each on the state the one before left (30_encoding.md R100: the host sequences them). -/
def runCommands : List Instr → State → Host.Outcome State Fault Refusal
  | [], s => .next s
  | i :: rest, s =>
    match exec i s with
    | .next t => runCommands rest t
    | .fault f => .fault f
    | .refused r => .refused r

/-- The state an outcome goes on in, if it goes on. -/
def nextState : Host.Outcome State Fault Refusal → Option State
  | .next t => some t
  | .fault _ => none
  | .refused _ => none

end Sys2Proof.Machine
end

