-- ==== Sys2Proof/WellFormed.lean ====
section
/-! DEFINITION. Which terms stand for something the spec has: commands and host actions. -/

namespace Sys2Proof

/-- Every field of a command admits every value its type has (30_encoding.md R93, R94: "all eight values legal"), so the one
check, the range of `r`, is met by the type of `r` and no term of `Instr` is ill-formed. -/
def Instr.wellFormed : Instr → Bool
  | .roundE r | .roundD r => decide (r.val < 8)
  | .mulmod | .mulinv | .b2w | .w2b | .pad | .unpad | .kexpe | .kexpd | .new | .outxfE | .outxfD | .xformE | .xformD
  | .enc | .dec => true

/-- A host action in the sense of 10_state.md R38: the place lies in the shape of R20, the host has the right, and a value
written is "a value of the register's width". What is not well-formed is "not a host action" (log 7). -/
def Machine.HostAction.wellFormed (c : Config) : HostAction → Bool
  | .write loc value => loc.inShape c && loc.hostWrites && decide (value < 2 ^ loc.width)
  | .read loc => loc.inShape c && loc.hostReads
  | .issue _ | .reset => true

end Sys2Proof
end

