-- ==== Sys2Proof/Certificates/Slice0/Obligations.lean ====
section
/-! DEFINITION. The statements about the core, each a rule of spec/ or what follows from several, in the terms of Safety.lean. -/

open Sys2Proof Sys2Proof.Machine

/-! ## Second descriptions the statements compare the model with -/

namespace Sys2Proof.Spec

/-- `mulMod` computed with a 32-bit product, as 40_modular_arithmetic.md R131 writes it. -/
def mulMod32 (a b : Word) : Word :=
  if a = 0 then BitVec.ofNat 16 (65537 - lift b)
  else if b = 0 then BitVec.ofNat 16 (65537 - lift a)
  else
    let p := a.toNat * b.toNat
    let lo := p % 65536
    let hi := p / 65536
    BitVec.ofInt 16 ((lo : Int) - hi + if lo < hi then 1 else 0)

/-- The decryption table written backward, as 42_key_scheduler.md R175 tells it: `dk[--p] = v` puts `v` in front of what is
already written. -/
def backwardTable (ek : SubkeyTable) : List Word :=
  let first := [mulInverse ek[0], neg16 ek[1], neg16 ek[2], mulInverse ek[3]]
  [1, 2, 3, 4, 5, 6, 7, 8].foldl (fun written g =>
    let m1 := ek[6 * g - 2]!
    let m2 := ek[6 * g - 1]!
    let t1 := mulInverse ek[6 * g]!
    let t2 := neg16 ek[6 * g + 1]!
    let t3 := neg16 ek[6 * g + 2]!
    let t4 := mulInverse ek[6 * g + 3]!
    let inputs := if g < 8 then [t1, t3, t2, t4] else [t1, t2, t3, t4]
    inputs ++ m1 :: m2 :: written) first

/-- The bytes `byte (L-n) .. byte (L-1)` are a valid padding of a message of length `L` whose last byte is `n`
(41_codec.md R153). -/
def ValidPadding (byte : Nat → Byte) (L : Nat) : Prop :=
  L ≠ 0 ∧ 1 ≤ (byte (L - 1)).toNat ∧ (byte (L - 1)).toNat ≤ 8 ∧ (byte (L - 1)).toNat ≤ L ∧
    ∀ a, L - (byte (L - 1)).toNat ≤ a → a < L → byte a = byte (L - 1)

/-- The commands that read `EK` (60_exceptions.md R255). -/
def readsEK : Instr → Bool
  | .kexpd | .roundE _ | .outxfE | .xformE | .enc => true
  | .mulmod | .mulinv | .b2w | .w2b | .pad | .unpad | .kexpe | .new | .roundD _ | .outxfD | .xformD | .dec => false

/-- The commands that read `DK` (60_exceptions.md R255). -/
def readsDK : Instr → Bool
  | .roundD _ | .outxfD | .xformD | .dec => true
  | .mulmod | .mulinv | .b2w | .w2b | .pad | .unpad | .kexpe | .kexpd | .new | .roundE _ | .outxfE | .xformE | .enc => false

/-- The commands that use the message buffer (60_exceptions.md R256). -/
def usesMessage : Instr → Bool
  | .pad | .unpad | .enc | .dec => true
  | .mulmod | .mulinv | .b2w | .w2b | .kexpe | .kexpd | .new | .roundE _ | .roundD _ | .outxfE | .outxfD | .xformE
  | .xformD => false

/-- The table the command needs, if any, is not valid: the cause of `NoKey` (60_exceptions.md R255). -/
def lacksKey (i : Instr) (s : State) : Prop :=
  (readsEK i = true ∧ s.ekv = false) ∨ (readsDK i = true ∧ s.dkv = false)

/-- Column "writes on success" of 10_state.md R39, and `ERR`; the offsets in `M` are computed from the state before. -/
def writes (s : State) : Instr → Loc → Prop
  | .mulmod, loc | .mulinv, loc => loc = .res ∨ loc = .err
  | .b2w, loc | .roundE _, loc | .roundD _, loc | .outxfE, loc | .outxfD, loc | .xformE, loc | .xformD, loc =>
    loc = .x1 ∨ loc = .x2 ∨ loc = .x3 ∨ loc = .x4 ∨ loc = .err
  | .w2b, loc => (∃ i, loc = .bb i) ∨ loc = .err
  | .pad, loc =>
    (∃ a, loc = .m a ∧ s.mlen.toNat ≤ a ∧ a < s.mlen.toNat + padCount s.mlen.toNat) ∨ loc = .mlen ∨ loc = .err
  | .unpad, loc => loc = .mlen ∨ loc = .err
  | .kexpe, loc => (∃ i, loc = .ek i) ∨ loc = .stat ∨ loc = .err
  | .kexpd, loc => (∃ i, loc = .dk i) ∨ loc = .stat ∨ loc = .err
  | .new, loc => (∃ i, loc = .ek i) ∨ (∃ i, loc = .dk i) ∨ loc = .stat ∨ loc = .err
  | .enc, loc => (∃ a, loc = .m a ∧ a < s.mlen.toNat + padCount s.mlen.toNat) ∨ loc = .mlen ∨ loc = .err
  | .dec, loc => (∃ a, loc = .m a ∧ a < s.mlen.toNat) ∨ loc = .mlen ∨ loc = .err

/-- One block of the message by hand (44_cipher_facade.md R239): the host copies `M[8j..8j+7]` to `BB`, issues B2W, XFORM.E and
W2B, and copies `BB` back. -/
def encryptBlockByHand (s : State) (j : Nat) : Option State :=
  (nextState (runCommands [.b2w, .xformE, .w2b]
    { s with bb := Vector.ofFn fun i : Fin 8 => s.messageByte (8 * j + i.val) })).map
      fun t => t.writeMessage (8 * j) t.bb.toList

/-- PAD, then every block of the padded message by hand, in index order (44_cipher_facade.md R239). -/
def encryptByHand (s : State) : Option State :=
  (nextState (exec .pad s)).bind fun t =>
    (List.range (t.mlen.toNat / 8)).foldl (fun u j => u.bind fun v => encryptBlockByHand v j) (some t)

end Sys2Proof.Spec

/-! ## Encoding -/

/-- 30_encoding.md R92: which words select which row, and no word selects two. -/
def Obligations.OpcodeMapSelectsByMaskAndMatch : Prop :=
  ∀ c : Word,
    (decode c = .ok .mulmod ↔ c = 0x1000) ∧ (decode c = .ok .mulinv ↔ c = 0x1100) ∧
    (decode c = .ok .b2w ↔ c = 0x2000) ∧ (decode c = .ok .w2b ↔ c = 0x2100) ∧
    (decode c = .ok .pad ↔ c = 0x2200) ∧ (decode c = .ok .unpad ↔ c = 0x2300) ∧
    (decode c = .ok .kexpe ↔ c = 0x3000) ∧ (decode c = .ok .kexpd ↔ c = 0x3100) ∧
    (decode c = .ok .new ↔ c = 0x3200) ∧
    (∀ r : Fin 8, (decode c = .ok (.roundE r) ↔ c = 0x4000 + BitVec.ofNat 16 r.val) ∧
      (decode c = .ok (.roundD r) ↔ c = 0x4008 + BitVec.ofNat 16 r.val)) ∧
    (decode c = .ok .outxfE ↔ c = 0x4100) ∧ (decode c = .ok .outxfD ↔ c = 0x4108) ∧
    (decode c = .ok .xformE ↔ c = 0x4200) ∧ (decode c = .ok .xformD ↔ c = 0x4208) ∧
    (decode c = .ok .enc ↔ c = 0x5000) ∧ (decode c = .ok .dec ↔ c = 0x5100) ∧
    ((∃ r, decode c = .ok (.roundE r) ∨ decode c = .ok (.roundD r)) ↔ c &&& 0xFFF0 = 0x4000) ∧
    ((decode c = .ok .outxfE ∨ decode c = .ok .outxfD) ↔ c &&& 0xFFF7 = 0x4100) ∧
    ((decode c = .ok .xformE ∨ decode c = .ok .xformD) ↔ c &&& 0xFFF7 = 0x4200)

/-- Words of every family written out from the examples of 30_encoding.md R98 and 95_test_vectors.md V6.1. -/
def Obligations.WrittenOutWordsDecode : Prop :=
  decode 0x1000 = .ok .mulmod ∧ decode 0x2300 = .ok .unpad ∧ decode 0x3200 = .ok .new ∧
  decode 0x4000 = .ok (.roundE 0) ∧ decode 0x400F = .ok (.roundD 7) ∧ decode 0x4108 = .ok .outxfD ∧
  decode 0x4200 = .ok .xformE ∧ decode 0x5100 = .ok .dec

/-- Decode and encode agree, for every command and every operand. -/
def Obligations.DecodeInvertsEncode : Prop := ∀ i : Instr, decode (encode i) = .ok i

/-- 30_encoding.md R95: which words are reserved, how many are not, and what issuing one does. -/
def Obligations.ReservedWordsExactly : Prop :=
  (∀ c : Word, (∃ e, decode c = .error e) ↔
    (c.extractLsb' 8 8 ∉ [0x10#8, 0x11#8, 0x20#8, 0x21#8, 0x22#8, 0x23#8, 0x30#8, 0x31#8, 0x32#8, 0x40#8, 0x41#8, 0x42#8,
        0x50#8, 0x51#8]) ∨
    (c.extractLsb' 8 8 ∈ [0x10#8, 0x11#8, 0x20#8, 0x21#8, 0x22#8, 0x23#8, 0x30#8, 0x31#8, 0x32#8, 0x50#8, 0x51#8] ∧
        c.extractLsb' 0 8 ≠ 0#8) ∨
    (c.extractLsb' 8 8 ∈ [0x41#8, 0x42#8] ∧ (c.extractLsb' 4 4 ≠ 0#4 ∨ c.extractLsb' 0 3 ≠ 0#3)) ∨
    (c.extractLsb' 8 8 = 0x40#8 ∧ c.extractLsb' 4 4 ≠ 0#4)) ∧
  (∃ words : List Word, words.Nodup ∧ words.length = 31 ∧ ∀ c, (∃ i, decode c = .ok i) ↔ c ∈ words) ∧
  (∃ e, decode 0x0000 = .error e) ∧ (∃ e, decode 0xFFFF = .error e) ∧
  (∀ (c : Word) (s : State), (∃ e, decode c = .error e) → issueCommand c s = .next { s with err := 6 })

/-! ## Steps and host actions -/

/-- A step runs the decoded command on the state from which only the host's action has been taken, also when the word has been
placed by `withFetchWord`; a reserved word only sets `ERR` (60_exceptions.md R257); and with no action left the core idles
(log 1). -/
def Obligations.StepRunsTheDecodedCommand : Prop :=
  (∀ (s : State) (c : Word) (rest : List HostAction) (i : Instr), s.actions = .issue c :: rest → decode c = .ok i →
    step s = exec i { s with actions := rest }) ∧
  (∀ (s : State) (nbits w : Nat) (i : Instr), decodeTableWord nbits w = some i →
    step (s.withFetchWord nbits w) = exec i s) ∧
  (∀ (s : State) (c : Word) (rest : List HostAction) (e : Reserved), s.actions = .issue c :: rest → decode c = .error e →
    step s = .next { s with actions := rest, err := 6 }) ∧
  (∀ s : State, s.actions = [] → step s = .next s)

/-- A host write stores its value in its place and nowhere else (10_state.md R37, R38; 20_memory.md R66). -/
def Obligations.HostWriteStoresOnlyItsPlace : Prop :=
  ∀ (s : State) (loc : Loc) (v : Nat) (rest : List HostAction), s.actions = .write loc v :: rest → loc ≠ .cmd →
    (HostAction.write loc v).wellFormed s.cfg = true →
    ∃ t, step s = .next t ∧ t.hostLoad loc = .ok v ∧ SameOutside (· = loc) { s with actions := rest } t

/-- A host read gives the value of the place and changes nothing of the core (10_state.md R38; 20_memory.md R66). -/
def Obligations.HostReadChangesNothing : Prop :=
  ∀ (s : State) (loc : Loc) (rest : List HostAction), s.actions = .read loc :: rest →
    (HostAction.read loc).wellFormed s.cfg = true →
    ∃ v, s.hostLoad loc = .ok v ∧
      step s = .next { s with actions := rest, replies := { loc := loc, value := v } :: s.replies }

/-- The model refuses exactly what is not a host action in the sense of 10_state.md R38, whatever command is issued; that a value
too wide for its place is among these is the model's reading (log 7). -/
def Obligations.OnlyNonActionsAreRefused : Prop :=
  ∀ (s : State) (a : HostAction) (rest : List HostAction), s.actions = a :: rest →
    ((∃ r, step s = .refused r) ↔ a.wellFormed s.cfg = false)

/-- 10_state.md R40: every value the rule gives; a byte of `KIN` or `M`, for which it gives none, is a free one, whatever the
index under which the model draws it (log 3). -/
def Obligations.ResetValues : Prop :=
  State.reset.opa = 0 ∧ State.reset.opb = 0 ∧ State.reset.res = 0 ∧
  State.reset.x1 = 0 ∧ State.reset.x2 = 0 ∧ State.reset.x3 = 0 ∧ State.reset.x4 = 0 ∧
  (∀ i : Fin 8, State.reset.bb[i] = 0) ∧ (∀ i : Fin 52, State.reset.ek[i] = 0) ∧ (∀ i : Fin 52, State.reset.dk[i] = 0) ∧
  State.reset.stat = 0 ∧ State.reset.ekv = false ∧ State.reset.dkv = false ∧ State.reset.err = 0 ∧
  State.reset.klen = 0 ∧ State.reset.mlen = 0 ∧
  (∀ i, State.reset.keyByte i = Config.freeKeyByte State.reset.resets i) ∧
  (∀ a, State.reset.messageByte a = Config.freeMessageByte State.reset.resets a)

/-- 70_reset_and_hazards.md R290: the reset event gives every place the value of R40, from any state. What `KIN` and `M` hold is
left open; that the event keeps the parameters and the host's side is the model's choice (log 5). -/
def Obligations.ResetEventGivesResetValues : Prop :=
  ∀ (s : State) (rest : List HostAction), s.actions = .reset :: rest →
    ∃ t, step s = .next t ∧ t.cfg = s.cfg ∧ t.actions = rest ∧ t.replies = s.replies ∧
      ∀ loc, (∀ a, loc ≠ .m a) → (∀ a, loc ≠ .kin a) → t.hostLoad loc = State.reset.hostLoad loc

/-! ## Modular arithmetic -/

/-- 40_modular_arithmetic.md R129, the product exact and the word 0 standing for 65536. -/
def Obligations.MulmodWritesTheProduct : Prop :=
  encode .mulmod = 0x1000 ∧
  ∀ s : State, exec .mulmod s = .next { s with
    res := BitVec.ofNat 16 (((if s.opa = 0 then 65536 else s.opa.toNat) * (if s.opb = 0 then 65536 else s.opb.toNat)) % 65537),
    err := 0 }

/-- 40_modular_arithmetic.md R130, laws 1 to 7, and with law 5 that the result word loses nothing (R124). -/
def Obligations.MulModLaws : Prop :=
  (∀ a b, mulMod a b = mulMod b a) ∧
  (∀ a b c, mulMod (mulMod a b) c = mulMod a (mulMod b c)) ∧
  (∀ a, mulMod a 1 = a) ∧
  (∀ a, mulMod a 0 = low16 (65537 - lift a)) ∧ mulMod 0 0 = 1 ∧
  (∀ a b, 1 ≤ (lift a * lift b) % 65537 ∧ (lift a * lift b) % 65537 ≤ 65536 ∧
    mulMod a b = low16 ((lift a * lift b) % 65537) ∧ lift (mulMod a b) = (lift a * lift b) % 65537) ∧
  (∀ b, Function.Bijective fun a => mulMod a b) ∧
  (∀ a b, mulMod (mulMod a b) (mulInverse b) = a ∧ mulMod (mulMod a (mulInverse b)) b = a) ∧
  mulMod 2 0x8000 = 0 ∧ mulMod 0 2 = 0xFFFF

/-- 40_modular_arithmetic.md R131: the same function with a product that fits 32 bits. -/
def Obligations.MulModIsTheThirtyTwoBitMethod : Prop :=
  ∀ a b : Word, mulMod a b = Spec.mulMod32 a b ∧ a.toNat * b.toNat < 2 ^ 32

/-- 40_modular_arithmetic.md R128: the inverse law on all 65536 words, and what follows from it there. -/
def Obligations.InverseLaw : Prop :=
  (∀ a, mulMod a (mulInverse a) = 1) ∧ mulInverse 0 = 0 ∧ mulInverse 1 = 1 ∧
  (∀ a, mulInverse (mulInverse a) = a) ∧ Function.Bijective mulInverse ∧
  (∀ a : Word, Nat.Coprime (lift a) 65537)

/-- What the recurrence of 40_modular_arithmetic.md R126 ends with: a coefficient that inverts `a`, in `[2, 65535]` after the
correction. -/
def Obligations.EuclidCoefficientInverts : Prop :=
  ∀ a : Nat, 2 ≤ a → a ≤ 65535 →
    2 ≤ euclidCoefficient a ∧ euclidCoefficient a ≤ 65535 ∧ euclidCoefficient a * (a : Int) % 65537 = 1

/-- 40_modular_arithmetic.md R132 with R127: `RES` is the one word that multiplies `OPA` to 1. -/
def Obligations.MulinvWritesTheInverse : Prop :=
  encode .mulinv = 0x1100 ∧
  ∀ s : State, ∃ v, exec .mulinv s = .next { s with res := v, err := 0 } ∧ v = mulInverse s.opa ∧
    mulMod s.opa v = 1 ∧ ∀ w, mulMod s.opa w = 1 → w = v

/-- 40_modular_arithmetic.md R121, R122, R123. -/
def Obligations.AdditiveLaws : Prop :=
  (∀ a b : Word, (add16 a b).toNat = (a.toNat + b.toNat) % 65536) ∧
  (∀ a b, add16 a b = add16 b a) ∧ (∀ a b c, add16 (add16 a b) c = add16 a (add16 b c)) ∧ (∀ a, add16 a 0 = a) ∧
  (∀ a : Word, (neg16 a).toNat = (65536 - a.toNat) % 65536) ∧ (∀ a, add16 a (neg16 a) = 0) ∧
  (∀ a, neg16 (neg16 a) = a) ∧
  (∀ (a b : Word) (i : Nat), (xor16 a b).getLsbD i = (a.getLsbD i).xor (b.getLsbD i)) ∧
  (∀ a b, xor16 a b = xor16 b a) ∧ (∀ a b c, xor16 (xor16 a b) c = xor16 a (xor16 b c)) ∧
  (∀ a, xor16 a 0 = a) ∧ (∀ a, xor16 a a = 0)

/-! ## Codec -/

/-- 41_codec.md R144. -/
def Obligations.B2wReadsBigEndian : Prop :=
  encode .b2w = 0x2000 ∧
  ∀ s : State, exec .b2w s = .next { s with
    x1 := BitVec.ofNat 16 (s.bb[0].toNat * 256 + s.bb[1].toNat),
    x2 := BitVec.ofNat 16 (s.bb[2].toNat * 256 + s.bb[3].toNat),
    x3 := BitVec.ofNat 16 (s.bb[4].toNat * 256 + s.bb[5].toNat),
    x4 := BitVec.ofNat 16 (s.bb[6].toNat * 256 + s.bb[7].toNat),
    err := 0 }

/-- 41_codec.md R145, with its corner case that B2W and W2B are inverse to each other. -/
def Obligations.W2bWritesBigEndian : Prop :=
  encode .w2b = 0x2100 ∧
  (∀ s : State, exec .w2b s = .next { s with
    bb := #v[BitVec.ofNat 8 (s.x1.toNat / 256), BitVec.ofNat 8 (s.x1.toNat % 256),
             BitVec.ofNat 8 (s.x2.toNat / 256), BitVec.ofNat 8 (s.x2.toNat % 256),
             BitVec.ofNat 8 (s.x3.toNat / 256), BitVec.ofNat 8 (s.x3.toNat % 256),
             BitVec.ofNat 8 (s.x4.toNat / 256), BitVec.ofNat 8 (s.x4.toNat % 256)],
    err := 0 }) ∧
  (∀ s t u : State, exec .w2b s = .next t → exec .b2w t = .next u → u.block = s.block) ∧
  (∀ s t u : State, exec .b2w s = .next t → exec .w2b t = .next u → u.bb = s.bb)

/-- 41_codec.md R142, at every length. -/
def Obligations.BytesAndWordsAreInverse : Prop :=
  (∀ (n : Nat) (bs : Vector Byte (2 * n)), wordsToBytes (bytesToWords bs) = bs) ∧
  (∀ (n : Nat) (ws : Vector Word n), bytesToWords (wordsToBytes ws) = ws) ∧
  bytesToWords (n := 0) #v[] = #v[] ∧ wordsToBytes (n := 0) #v[] = #v[]

/-- 41_codec.md R148, with the bytes of R146. -/
def Obligations.PaddingLaw : Prop :=
  ∀ bs : List Byte,
    (pad bs).length = 8 * (bs.length / 8 + 1) ∧
    ∃ n, 1 ≤ n ∧ n ≤ 8 ∧ (bs.length + n) % 8 = 0 ∧ pad bs = bs ++ List.replicate n (BitVec.ofNat 8 n)

/-- What `unpad` accepts (41_codec.md R150, R151): exactly the sequences that end in `n` bytes of value `n`, `1 ≤ n ≤ 8`. -/
def Obligations.UnpadAcceptsExactlyPadded : Prop :=
  ∀ bs out : List Byte, unpad bs = some out ↔ ∃ n, 1 ≤ n ∧ n ≤ 8 ∧ bs = out ++ List.replicate n (BitVec.ofNat 8 n)

/-- 41_codec.md R152; the last clause says that its second condition is needed. -/
def Obligations.UnpadInvertsPad : Prop :=
  (∀ bs, unpad (pad bs) = some bs) ∧
  (∀ cs out, unpad cs = some out → cs.length % 8 = 0 → pad out = cs) ∧
  (∃ cs out, unpad cs = some out ∧ pad out ≠ cs)

/-- 41_codec.md R149: what PAD writes, when it fails, and that it changes nothing else. -/
def Obligations.PadAppendsThePadding : Prop :=
  encode .pad = 0x2200 ∧
  (∀ s : State, s.cfg.mcapWf → s.mlen.toNat + (8 - s.mlen.toNat % 8) ≤ s.cfg.mcap →
    ∃ t, exec .pad s = .next t ∧ t.err = 0 ∧ t.mlen.toNat = s.mlen.toNat + (8 - s.mlen.toNat % 8) ∧
      (∀ a, s.mlen.toNat ≤ a → a < s.mlen.toNat + (8 - s.mlen.toNat % 8) →
        t.messageByte a = BitVec.ofNat 8 (8 - s.mlen.toNat % 8)) ∧
      t.message = pad s.message ∧
      SameOutside (fun loc => loc = .err ∨ loc = .mlen ∨
        ∃ a, loc = .m a ∧ s.mlen.toNat ≤ a ∧ a < s.mlen.toNat + (8 - s.mlen.toNat % 8)) s t) ∧
  (∀ s : State, s.cfg.mcap < s.mlen.toNat + (8 - s.mlen.toNat % 8) → exec .pad s = .next { s with err := 5 })

/-- 41_codec.md R153: when UNPAD succeeds and what it leaves, and which error it reports when it does not. -/
def Obligations.UnpadChecksAndShortens : Prop :=
  encode .unpad = 0x2300 ∧
  (∀ s : State, s.mlen.toNat ≤ s.cfg.mcap → Spec.ValidPadding s.messageByte s.mlen.toNat →
    exec .unpad s = .next { s with
      mlen := BitVec.ofNat 32 (s.mlen.toNat - (s.messageByte (s.mlen.toNat - 1)).toNat), err := 0 }) ∧
  (∀ s t : State, exec .unpad s = .next t → t.err = 0 → unpad s.message = some t.message) ∧
  (∀ s : State, s.mlen.toNat ≤ s.cfg.mcap → ¬ Spec.ValidPadding s.messageByte s.mlen.toNat →
    exec .unpad s = .next { s with err := 3 }) ∧
  (∀ s : State, s.cfg.mcap < s.mlen.toNat → exec .unpad s = .next { s with err := 5 })

/-! ## Key scheduler -/

/-- 42_key_scheduler.md R170. -/
def Obligations.EncryptionTableRecurrence : Prop :=
  ∀ key : Vector Byte 16,
    (∀ (i : Nat) (h : i < 8), (deriveEncryptionKeys .doc key)[i] =
      BitVec.ofNat 16 (key[2 * i].toNat * 256 + key[2 * i + 1].toNat)) ∧
    (∀ (i : Nat) (_ : 8 ≤ i) (h : i < 52), (deriveEncryptionKeys .doc key)[i] =
      BitVec.ofNat 16 ((((deriveEncryptionKeys .doc key)[i - 8].toNat <<< 9) |||
        ((deriveEncryptionKeys .doc key)[i - 7].toNat >>> 7)) &&& 0xFFFF))

/-- The named alternative of 42_key_scheduler.md R172, which the spec gives from general knowledge. -/
def Obligations.PublishedTableRecurrence : Prop :=
  ∀ key : Vector Byte 16,
    (∀ (i : Nat) (h : i < 8), (deriveEncryptionKeys .published key)[i] = (deriveEncryptionKeys .doc key)[i]) ∧
    (∀ (i a b : Nat) (_ : 8 ≤ i) (h : i < 52) (ha : a < 52) (hb : b < 52),
      ((i % 8 < 6 ∧ a = i - 7 ∧ b = i - 6) ∨ (i % 8 = 6 ∧ a = i - 7 ∧ b = i - 14) ∨
        (i % 8 = 7 ∧ a = i - 15 ∧ b = i - 14)) →
      (deriveEncryptionKeys .published key)[i] =
        BitVec.ofNat 16 ((((deriveEncryptionKeys .published key)[a].toNat <<< 9) |||
          ((deriveEncryptionKeys .published key)[b].toNat >>> 7)) &&& 0xFFFF))

/-- 42_key_scheduler.md R171: each subkey is a window on the two words it is made from, and on the table as one string of 832
bits, first bit first, each bit from position 128 on repeats the one 119 before it. -/
def Obligations.KeyStreamRepeatsBits : Prop :=
  ∀ key : Vector Byte 16,
    (∀ (i : Nat) (_ : 8 ≤ i) (h : i < 52), (deriveEncryptionKeys .doc key)[i] =
      ((deriveEncryptionKeys .doc key)[i - 8] ++ (deriveEncryptionKeys .doc key)[i - 7]).extractLsb' 7 16) ∧
    (∀ (p : Nat) (_ : 128 ≤ p) (h : p < 832),
      ((deriveEncryptionKeys .doc key)[p / 16]'(by omega)).getMsbD (p % 16) =
        ((deriveEncryptionKeys .doc key)[(p - 119) / 16]'(by omega)).getMsbD ((p - 119) % 16))

/-- 42_key_scheduler.md R174, by position. -/
def Obligations.DecryptionTableByPosition : Prop :=
  ∀ ek : SubkeyTable,
    (deriveDecryptionKeys ek)[0] = mulInverse ek[48] ∧ (deriveDecryptionKeys ek)[1] = neg16 ek[49] ∧
    (deriveDecryptionKeys ek)[2] = neg16 ek[50] ∧ (deriveDecryptionKeys ek)[3] = mulInverse ek[51] ∧
    (deriveDecryptionKeys ek)[4] = ek[46] ∧ (deriveDecryptionKeys ek)[5] = ek[47] ∧
    (∀ (j : Nat) (_ : 2 ≤ j) (_ : j ≤ 8),
      (deriveDecryptionKeys ek)[6 * (j - 1)]'(by omega) = mulInverse (ek[6 * (9 - j)]'(by omega)) ∧
      (deriveDecryptionKeys ek)[6 * (j - 1) + 1]'(by omega) = neg16 (ek[6 * (9 - j) + 2]'(by omega)) ∧
      (deriveDecryptionKeys ek)[6 * (j - 1) + 2]'(by omega) = neg16 (ek[6 * (9 - j) + 1]'(by omega)) ∧
      (deriveDecryptionKeys ek)[6 * (j - 1) + 3]'(by omega) = mulInverse (ek[6 * (9 - j) + 3]'(by omega)) ∧
      (deriveDecryptionKeys ek)[6 * (j - 1) + 4]'(by omega) = ek[6 * (9 - j) - 2]'(by omega) ∧
      (deriveDecryptionKeys ek)[6 * (j - 1) + 5]'(by omega) = ek[6 * (9 - j) - 1]'(by omega)) ∧
    (deriveDecryptionKeys ek)[48] = mulInverse ek[0] ∧ (deriveDecryptionKeys ek)[49] = neg16 ek[1] ∧
    (deriveDecryptionKeys ek)[50] = neg16 ek[2] ∧ (deriveDecryptionKeys ek)[51] = mulInverse ek[3]

/-- 42_key_scheduler.md R175: the source's backward writing gives the same table. -/
def Obligations.BackwardWritingGivesTheSameTable : Prop :=
  ∀ ek : SubkeyTable, (deriveDecryptionKeys ek).toList = Spec.backwardTable ek

/-- 42_key_scheduler.md R178, items 2 and 3. -/
def Obligations.DerivingTwiceReturnsTheTable : Prop :=
  (∀ ek : SubkeyTable, deriveDecryptionKeys (deriveDecryptionKeys ek) = ek) ∧
  deriveDecryptionKeys (Vector.replicate 52 0) = Vector.replicate 52 0

/-- 42_key_scheduler.md R179. -/
def Obligations.KexpeDerivesTheEncryptionTable : Prop :=
  encode .kexpe = 0x3000 ∧
  (∀ s : State, s.klen = 16 → ∃ t, exec .kexpe s = .next t ∧
    t = { s with ek := deriveEncryptionKeys s.cfg.ksMode (Vector.ofFn fun i : Fin 16 => s.keyByte i.val),
                 stat := t.stat, err := 0 } ∧
    t.ekv = true ∧ t.dkv = false ∧ ∀ i, 2 ≤ i → t.stat.getLsbD i = s.stat.getLsbD i) ∧
  (∀ s : State, s.klen ≠ 16 → exec .kexpe s = .next { s with err := 1 })

/-- 42_key_scheduler.md R180. -/
def Obligations.KexpdDerivesTheDecryptionTable : Prop :=
  encode .kexpd = 0x3100 ∧
  (∀ s : State, s.ekv = true → ∃ t, exec .kexpd s = .next t ∧
    t = { s with dk := deriveDecryptionKeys s.ek, stat := t.stat, err := 0 } ∧
    t.ekv = true ∧ t.dkv = true ∧ ∀ i, 2 ≤ i → t.stat.getLsbD i = s.stat.getLsbD i) ∧
  (∀ s : State, s.ekv = false → exec .kexpd s = .next { s with err := 4 })

/-- 42_key_scheduler.md R181, with its corner case that NEW is KEXPE and then KEXPD in one step. -/
def Obligations.NewDerivesBothTables : Prop :=
  encode .new = 0x3200 ∧
  (∀ s : State, s.klen = 16 → ∃ t, exec .new s = .next t ∧
    t = { s with ek := deriveEncryptionKeys s.cfg.ksMode (Vector.ofFn fun i : Fin 16 => s.keyByte i.val),
                 dk := deriveDecryptionKeys
                   (deriveEncryptionKeys s.cfg.ksMode (Vector.ofFn fun i : Fin 16 => s.keyByte i.val)),
                 stat := t.stat, err := 0 } ∧
    t.ekv = true ∧ t.dkv = true ∧ (∀ i, 2 ≤ i → t.stat.getLsbD i = s.stat.getLsbD i) ∧
    runCommands [.kexpe, .kexpd] s = .next t) ∧
  (∀ s : State, s.klen ≠ 16 → exec .new s = .next { s with err := 1 })

/-- 10_state.md R34, R31, R32: the tables and `STAT` are written by successful key-scheduler commands only, each its own. -/
def Obligations.OnlyKeySchedulerWritesTables : Prop :=
  ∀ (i : Instr) (s t : State), exec i s = .next t →
    ((i ≠ .kexpe ∧ i ≠ .kexpd ∧ i ≠ .new) ∨ t.err ≠ 0 → t.ek = s.ek ∧ t.dk = s.dk ∧ t.stat = s.stat) ∧
    (i ≠ .kexpe → i ≠ .new → t.ek = s.ek) ∧ (i ≠ .kexpd → i ≠ .new → t.dk = s.dk)

/-! ## Block transform -/

/-- 43_block_transform.md R201 for both tables and every round number, with the closed form of R200. -/
def Obligations.RoundCommandsRunOneRound : Prop :=
  ∀ (r : Fin 8) (s : State),
    encode (.roundE r) = BitVec.ofNat 16 (0x4000 + r.val) ∧ encode (.roundD r) = BitVec.ofNat 16 (0x4008 + r.val) ∧
    ∀ (i : Instr) (t : SubkeyTable) (valid : Bool),
      (i = .roundE r ∧ t = s.ek ∧ valid = s.ekv) ∨ (i = .roundD r ∧ t = s.dk ∧ valid = s.dkv) →
      ∀ z1 z2 z3 z4 z5 z6 y1 y2 y3 y4 u t1 t2 : Word,
        z1 = t[6 * r.val] → z2 = t[6 * r.val + 1] → z3 = t[6 * r.val + 2] → z4 = t[6 * r.val + 3] →
        z5 = t[6 * r.val + 4] → z6 = t[6 * r.val + 5] →
        y1 = mulMod s.x1 z1 → y2 = s.x2 + z2 → y3 = s.x3 + z3 → y4 = mulMod s.x4 z4 →
        u = mulMod (y1 ^^^ y3) z5 → t1 = mulMod (u + (y2 ^^^ y4)) z6 → t2 = t1 + u →
        exec i s = .next (if valid then
            { s with x1 := y1 ^^^ t1, x2 := y3 ^^^ t1, x3 := y2 ^^^ t2, x4 := y4 ^^^ t2, err := 0 }
          else { s with err := 4 })

/-- 43_block_transform.md R203 for both tables, with R202. -/
def Obligations.OutxfCommandsApplyTheOutput : Prop :=
  encode .outxfE = 0x4100 ∧ encode .outxfD = 0x4108 ∧
  ∀ s : State,
    exec .outxfE s = .next (if s.ekv then
        { s with x1 := mulMod s.x1 s.ek[48], x2 := s.x3 + s.ek[49], x3 := s.x2 + s.ek[50], x4 := mulMod s.x4 s.ek[51],
                 err := 0 }
      else { s with err := 4 }) ∧
    exec .outxfD s = .next (if s.dkv then
        { s with x1 := mulMod s.x1 s.dk[48], x2 := s.x3 + s.dk[49], x3 := s.x2 + s.dk[50], x4 := mulMod s.x4 s.dk[51],
                 err := 0 }
      else { s with err := 4 })

/-- 43_block_transform.md R206 for both tables: success is `transform` of the block registers under the selected table. -/
def Obligations.XformCommandsTransformTheBlock : Prop :=
  encode .xformE = 0x4200 ∧ encode .xformD = 0x4208 ∧
  (∀ s : State, s.ekv = true → ∃ t, exec .xformE s = .next t ∧ t.block = transform s.ek s.block ∧
    t = { s with x1 := t.x1, x2 := t.x2, x3 := t.x3, x4 := t.x4, err := 0 }) ∧
  (∀ s : State, s.dkv = true → ∃ t, exec .xformD s = .next t ∧ t.block = transform s.dk s.block ∧
    t = { s with x1 := t.x1, x2 := t.x2, x3 := t.x3, x4 := t.x4, err := 0 }) ∧
  (∀ s : State, s.ekv = false → exec .xformE s = .next { s with err := 4 }) ∧
  (∀ s : State, s.dkv = false → exec .xformD s = .next { s with err := 4 })

/-- 43_block_transform.md R208: XFORM is ROUND 0 to ROUND 7 and OUTXF, for either table and from every state. -/
def Obligations.XformEqualsItsParts : Prop :=
  ∀ s : State,
    runCommands [.roundE 0, .roundE 1, .roundE 2, .roundE 3, .roundE 4, .roundE 5, .roundE 6, .roundE 7, .outxfE] s =
      exec .xformE s ∧
    runCommands [.roundD 0, .roundD 1, .roundD 2, .roundD 3, .roundD 4, .roundD 5, .roundD 6, .roundD 7, .outxfD] s =
      exec .xformD s

/-- 43_block_transform.md R209, in both directions, as functions and as commands. -/
def Obligations.TransformIsInvertible : Prop :=
  (∀ (ek : SubkeyTable) (b : Block), transform (deriveDecryptionKeys ek) (transform ek b) = b ∧
    transform ek (transform (deriveDecryptionKeys ek) b) = b) ∧
  (∀ s t u : State, s.ekv = true → s.dkv = true → s.dk = deriveDecryptionKeys s.ek →
    (exec .xformE s = .next t → exec .xformD t = .next u → u.block = s.block) ∧
    (exec .xformD s = .next t → exec .xformE t = .next u → u.block = s.block))

/-- 43_block_transform.md R210. -/
def Obligations.BlockFunctionsAreBijective : Prop :=
  (∀ t : SubkeyTable, Function.Bijective (transform t)) ∧
  (∀ z : RoundKeys, Function.Bijective fun x => blockRound x z) ∧
  (∀ z : OutputKeys, Function.Bijective fun x => outxf x z)

/-! ## Whole messages -/

/-- 44_cipher_facade.md R230: block `j` of the result is block `j` of the padded input transformed, and nothing else. -/
def Obligations.EncryptBytesBlockByBlock : Prop :=
  ∀ (ek : SubkeyTable) (bs : List Byte),
    encryptBytes ek [] = [] ∧
    (bs ≠ [] → (encryptBytes ek bs).length = 8 * (bs.length / 8 + 1) ∧
      ∀ (j : Nat) (h : j < bs.length / 8 + 1), ∃ hp : (pad bs).length = 8 * (bs.length / 8 + 1),
        ((encryptBytes ek bs).drop (8 * j)).take 8 =
          (bytesOfBlock (transform ek
            (blockOfBytes (Vector.ofFn fun i : Fin 8 => (pad bs)[8 * j + i.val]'(by omega))))).toList)

/-- 44_cipher_facade.md R231: ENC in place, its two errors, and that it changes nothing else. -/
def Obligations.EncEncryptsInPlace : Prop :=
  encode .enc = 0x5000 ∧
  (∀ s : State, s.cfg.mcapWf → s.ekv = true → 1 ≤ s.mlen.toNat → s.mlen.toNat + (8 - s.mlen.toNat % 8) ≤ s.cfg.mcap →
    ∃ t, exec .enc s = .next t ∧ t.err = 0 ∧ t.mlen.toNat = s.mlen.toNat + (8 - s.mlen.toNat % 8) ∧
      t.message = encryptBytes s.ek s.message ∧
      SameOutside (fun loc => loc = .err ∨ loc = .mlen ∨
        ∃ a, loc = .m a ∧ a < s.mlen.toNat + (8 - s.mlen.toNat % 8)) s t) ∧
  (∀ s : State, s.ekv = true → s.mlen = 0 → exec .enc s = .next { s with err := 0 }) ∧
  (∀ s : State, s.ekv = false → exec .enc s = .next { s with err := 4 }) ∧
  (∀ s : State, s.ekv = true → s.mlen ≠ 0 → s.cfg.mcap < s.mlen.toNat + (8 - s.mlen.toNat % 8) →
    exec .enc s = .next { s with err := 5 })

/-- 44_cipher_facade.md R233: DEC in place, its four errors in their order, and that it changes nothing else. -/
def Obligations.DecDecryptsInPlace : Prop :=
  encode .dec = 0x5100 ∧
  (∀ (s : State) (out : List Byte), s.dkv = true → s.mlen.toNat ≤ s.cfg.mcap →
    decryptBytes s.dk s.message = .ok out →
    ∃ t, exec .dec s = .next t ∧ t.err = 0 ∧ t.mlen.toNat = out.length ∧ t.message = out ∧
      (∀ (a : Nat) (h : a < (transformBlocks s.dk s.message).length),
        t.messageByte a = (transformBlocks s.dk s.message)[a]) ∧
      SameOutside (fun loc => loc = .err ∨ loc = .mlen ∨ ∃ a, loc = .m a ∧ a < s.mlen.toNat) s t) ∧
  (∀ s : State, s.dkv = false → exec .dec s = .next { s with err := 4 }) ∧
  (∀ s : State, s.dkv = true → s.cfg.mcap < s.mlen.toNat → exec .dec s = .next { s with err := 5 }) ∧
  (∀ s : State, s.dkv = true → s.mlen.toNat ≤ s.cfg.mcap → (s.mlen.toNat = 0 ∨ s.mlen.toNat % 8 ≠ 0) →
    exec .dec s = .next { s with err := 2 }) ∧
  (∀ s : State, s.dkv = true → s.mlen.toNat ≤ s.cfg.mcap → s.mlen.toNat ≠ 0 → s.mlen.toNat % 8 = 0 →
    unpad (transformBlocks s.dk s.message) = none → exec .dec s = .next { s with err := 3 })

/-- 44_cipher_facade.md R234: the round trip, in bytes and in commands. -/
def Obligations.DecryptionInvertsEncryption : Prop :=
  (∀ (ek : SubkeyTable) (bs : List Byte), bs ≠ [] →
    decryptBytes (deriveDecryptionKeys ek) (encryptBytes ek bs) = .ok bs) ∧
  (∀ s : State, s.cfg.mcapWf → s.ekv = true → s.dkv = true → s.dk = deriveDecryptionKeys s.ek → 1 ≤ s.mlen.toNat →
    8 * (s.mlen.toNat / 8 + 1) ≤ s.cfg.mcap →
    ∃ t u, exec .enc s = .next t ∧ t.err = 0 ∧ exec .dec t = .next u ∧ u.err = 0 ∧ u.mlen = s.mlen ∧
      u.message = s.message)

/-- 44_cipher_facade.md R240: the empty message is not symmetric. -/
def Obligations.EmptyMessageDoesNotRoundTrip : Prop :=
  (∀ ek dk : SubkeyTable, encryptBytes ek [] = [] ∧ decryptBytes dk [] = .error .invalidBlockLength) ∧
  (∀ s : State, s.ekv = true → s.dkv = true → s.mlen = 0 →
    exec .enc s = .next { s with err := 0 } ∧ exec .dec { s with err := 0 } = .next { s with err := 2 }) ∧
  (∀ (ek : SubkeyTable) (bs : List Byte), bs ≠ [] → encryptBytes ek bs ≠ [])

/-- 44_cipher_facade.md R239, the part on ENC: padding and then one block at a time by hand leaves the same `M` and `MLEN`. -/
def Obligations.EncEqualsItsParts : Prop :=
  ∀ s : State, s.cfg.mcapWf → s.ekv = true → 1 ≤ s.mlen.toNat → s.mlen.toNat + (8 - s.mlen.toNat % 8) ≤ s.cfg.mcap →
    ∃ t u, exec .enc s = .next t ∧ Spec.encryptByHand s = some u ∧ t.mlen = u.mlen ∧
      ∀ a, t.messageByte a = u.messageByte a

/-! ## Errors and frames -/

/-- 60_exceptions.md R250 with R251 and R260: every command, from every state, ends in success, or sets `ERR` to one of its own
codes and changes nothing else. -/
def Obligations.EveryCommandSucceedsOrOnlySetsErr : Prop :=
  ∀ (i : Instr) (s : State), ∃ t, exec i s = .next t ∧
    ((t.err = 0 ∧ ¬ ∃ e : ErrorKind, t.err = e.code) ∨ ∃ e ∈ errorsOf i, t = { s with err := e.code } ∧ t.err ≠ 0)

/-- 10_state.md R39: what a command does not write reads as before, register by register and byte by byte; a failing one writes
only `ERR`. -/
def Obligations.CommandsWriteOnlyTheirDestinations : Prop :=
  ∀ (i : Instr) (s t : State), exec i s = .next t →
    SameOutside (Spec.writes s i) s t ∧ (t.err ≠ 0 → SameOutside (· = .err) s t)

/-- 60_exceptions.md R255: when a command reports `NoKey`, and which valid bits are 0 after reset and after KEXPE alone. -/
def Obligations.NoKeyExactly : Prop :=
  (∀ (i : Instr) (s t : State), exec i s = .next t → (t.err = 4 ↔ Spec.lacksKey i s)) ∧
  State.reset.ekv = false ∧ State.reset.dkv = false ∧
  (∀ s t : State, exec .kexpe s = .next t → t.err = 0 → t.dkv = false)

/-- 60_exceptions.md R256. -/
def Obligations.CapacityExactly : Prop :=
  ∀ (i : Instr) (s t : State), exec i s = .next t →
    (t.err = 5 ↔ Spec.usesMessage i = true ∧ ¬ Spec.lacksKey i s ∧
      (s.cfg.mcap < s.mlen.toNat ∨
        ((i = .pad ∨ (i = .enc ∧ s.mlen ≠ 0)) ∧ s.cfg.mcap < s.mlen.toNat + (8 - s.mlen.toNat % 8))))

/-- 60_exceptions.md R253: DEC only, before any block is transformed. -/
def Obligations.InvalidBlockLengthExactly : Prop :=
  ∀ (i : Instr) (s t : State), exec i s = .next t →
    (t.err = 2 ↔ i = .dec ∧ s.dkv = true ∧ s.mlen.toNat ≤ s.cfg.mcap ∧ (s.mlen.toNat = 0 ∨ s.mlen.toNat % 8 ≠ 0))

/-- 60_exceptions.md R254: DEC on the decrypted bytes, UNPAD on the message as it stands. -/
def Obligations.InvalidPaddingExactly : Prop :=
  ∀ (i : Instr) (s t : State), exec i s = .next t →
    (t.err = 3 ↔ s.mlen.toNat ≤ s.cfg.mcap ∧
      ((i = .unpad ∧ ¬ Spec.ValidPadding s.messageByte s.mlen.toNat) ∨
       (i = .dec ∧ s.dkv = true ∧ s.mlen.toNat ≠ 0 ∧ s.mlen.toNat % 8 = 0 ∧
        ¬ Spec.ValidPadding (fun a => (transformBlocks s.dk s.message).getD a 0) s.mlen.toNat)))

/-- 60_exceptions.md R259: which error is reported when several causes hold. -/
def Obligations.ErrorPriority : Prop :=
  (∀ (c : Word) (s t : State), (∃ e, decode c = .error e) → issueCommand c s = .next t → t.err = 6) ∧
  ∀ (i : Instr) (s t : State), exec i s = .next t →
    (Spec.lacksKey i s → t.err = 4) ∧
    (¬ Spec.lacksKey i s → Spec.usesMessage i = true → s.cfg.mcap < s.mlen.toNat → t.err = 5) ∧
    (i = .kexpe ∨ i = .new → s.klen ≠ 16 → t.err = 1) ∧
    (i = .dec → s.dkv = true → s.mlen.toNat ≤ s.cfg.mcap → (s.mlen.toNat = 0 ∨ s.mlen.toNat % 8 ≠ 0) → t.err = 2) ∧
    (i = .dec → s.dkv = true → s.mlen.toNat ≤ s.cfg.mcap → s.mlen.toNat ≠ 0 → s.mlen.toNat % 8 = 0 →
      unpad (transformBlocks s.dk s.message) = none → t.err = 3) ∧
    (i = .enc → s.ekv = true → s.mlen = 0 → t.err = 0) ∧
    (i = .pad ∨ (i = .enc ∧ s.ekv = true ∧ s.mlen ≠ 0) → s.mlen.toNat ≤ s.cfg.mcap →
      s.cfg.mcap < s.mlen.toNat + (8 - s.mlen.toNat % 8) → t.err = 5)

/-- 60_exceptions.md R272: a DEC or UNPAD that reports `InvalidPadding` changes nothing the host can read but `ERR`, and what it
leaves does not depend on the decryption table, so not on the decrypted bytes. -/
def Obligations.FailedPaddingExposesNothing : Prop :=
  (∀ (i : Instr) (s t : State), i = .dec ∨ i = .unpad → exec i s = .next t → t.err = 3 →
    OnlyErrSet .invalidPadding s t) ∧
  (∀ (s t t' : State) (dk' : SubkeyTable), exec .dec s = .next t → exec .dec { s with dk := dk' } = .next t' →
    t.err = 3 → t'.err = 3 → t' = { t with dk := dk' })

/-- 00_scope.md R6, 20_memory.md R67: no rule reads `regmap`. On a platform with any other one, a command, a step and a host read
do the same, and every step leaves the map as it is. -/
def Obligations.NoRuleReadsTheRegmap : Prop :=
  (∀ (i : Instr) (s : State) (f : RegMap), exec i (s.withRegmap f) = mapNext (·.withRegmap f) (exec i s)) ∧
  (∀ (s : State) (f : RegMap), step (s.withRegmap f) = mapNext (·.withRegmap f) (step s)) ∧
  (∀ (s : State) (f : RegMap) (loc : Loc), (s.withRegmap f).hostLoad loc = s.hostLoad loc) ∧
  (∀ s t : State, step s = .next t → t.cfg.regmap = s.cfg.regmap)

/-! ## Invariants -/

/-- The reset state meets the three invariants. -/
def Obligations.ResetMeetsTheInvariants : Prop :=
  MemoryInv State.reset ∧ StatusInv State.reset ∧ KeyInv State.reset ∧ State.reset.cfg.wf

/-- Every step keeps both buffers canonical and inside their spaces (20_memory.md R60, R69: a command never forms an offset
outside a buffer). -/
def Obligations.StepKeepsBuffersCanonical : Prop :=
  ∀ s t : State, MemoryInv s → step s = .next t → MemoryInv t

/-- 42_key_scheduler.md R183: every step keeps the tables and the valid bits in agreement. -/
def Obligations.StepKeepsTheCipherInstance : Prop :=
  ∀ s t : State, KeyInv s → step s = .next t → KeyInv t

/-- 10_state.md R28, R26: every step keeps the reserved bits of `STAT` at 0 and `ERR` at a known code. -/
def Obligations.StepKeepsStatusLegal : Prop :=
  ∀ s t : State, StatusInv s → step s = .next t → StatusInv t
end

