-- ==== Sys2Proof/Laws/Arithmetic.lean ====
section
/-! SUPPORT. Small facts about `lift`, `low16`, the additive operations and the Euclid loop, from which the laws of
40_modular_arithmetic.md follow. -/

namespace Sys2Proof.Machine

@[simp] theorem lift_zero : lift 0 = 65536 := rfl

theorem lift_of_ne_zero {w : Word} (h : w ≠ 0) : lift w = w.toNat := by simp only [lift, if_neg h]

theorem lift_pos (w : Word) : 1 ≤ lift w := by
  unfold lift
  split
  · decide
  · next h =>
    have : w.toNat ≠ 0 := fun h0 => h (BitVec.eq_of_toNat_eq h0)
    omega

theorem lift_le (w : Word) : lift w ≤ 65536 := by
  unfold lift
  split
  · decide
  · have := w.isLt; omega

@[simp] theorem toNat_low16 (v : Nat) : (low16 v).toNat = v % 65536 := BitVec.toNat_ofNat v 16

/-- `low16` is inverse to `lift` on words (R120). -/
theorem low16_lift (w : Word) : low16 (lift w) = w := by
  apply BitVec.eq_of_toNat_eq
  rw [toNat_low16]
  unfold lift
  split
  · next h => subst h; rfl
  · exact Nat.mod_eq_of_lt w.isLt

/-- `lift` is inverse to `low16` on `[1, 65536]` (R120). -/
theorem lift_low16 (v : Nat) (h1 : 1 ≤ v) (h2 : v ≤ 65536) : lift (low16 v) = v := by
  by_cases hv : v = 65536
  · subst hv; rfl
  · have hlt : v < 65536 := by omega
    have hne : low16 v ≠ 0 := by
      intro h
      have := congrArg BitVec.toNat h
      simp [Nat.mod_eq_of_lt hlt] at this
      omega
    rw [lift_of_ne_zero hne, toNat_low16, Nat.mod_eq_of_lt hlt]

/-- Two words with the same lifted value are the same word. -/
theorem lift_injective {a b : Word} (h : lift a = lift b) : a = b := by
  rw [← low16_lift a, h, low16_lift]

@[simp] theorem toNat_add16 (a b : Word) : (add16 a b).toNat = (a.toNat + b.toNat) % 65536 := BitVec.toNat_add a b

@[simp] theorem add16_neg16 (a : Word) : add16 a (neg16 a) = 0 := BitVec.add_right_neg a

@[simp] theorem neg16_neg16 (a : Word) : neg16 (neg16 a) = a := BitVec.neg_neg

@[simp] theorem xor16_self (a : Word) : xor16 a a = 0 := BitVec.xor_self

/-- One pass of the loop of R126. -/
theorem euclidLoop_pass (fuel r0 r1 : Nat) (t0 t1 : Int) (h : r1 ≠ 0) :
    euclidLoop (fuel + 1) r0 r1 t0 t1 = euclidLoop fuel r1 (r0 % r1) t1 (t0 - (r0 / r1 : Nat) * t1) := by
  have hr : r0 - r0 / r1 * r1 = r0 % r1 := by
    have := Nat.div_add_mod r0 r1
    rw [Nat.mul_comm] at this
    omega
  simp only [euclidLoop, if_neg h, hr]

/-- The loop ends when the remainder is 0. -/
theorem euclidLoop_end (fuel r0 : Nat) (t0 t1 : Int) : euclidLoop fuel r0 0 t0 t1 = t0 := by
  cases fuel <;> rfl

end Sys2Proof.Machine
end

