-- ==== Sys2Proof/Laws/Codec.lean ====
section
/-! SUPPORT. The bytes and words of the codec, entry by entry, and the lengths of what the message functions return. -/

namespace Sys2Proof.Machine

theorem bytesToWords_getElem {n : Nat} (bs : Vector Byte (2 * n)) (i : Nat) (h : i < n) :
    (bytesToWords bs)[i] = wordOfBytes bs[2 * i] bs[2 * i + 1] := by simp [bytesToWords]

theorem wordsToBytes_getElem {n : Nat} (ws : Vector Word n) (j : Nat) (h : j < 2 * n) :
    (wordsToBytes ws)[j] = if j % 2 = 0 then highByte ws[j / 2] else lowByte ws[j / 2] := by simp [wordsToBytes]

theorem toNat_wordOfBytes (b0 b1 : Byte) : (wordOfBytes b0 b1).toNat = b0.toNat * 256 + b1.toNat := by
  unfold wordOfBytes
  rw [BitVec.toNat_append, ← Nat.shiftLeft_add_eq_or_of_lt b1.isLt, Nat.shiftLeft_eq]

theorem toNat_highByte (w : Word) : (highByte w).toNat = w.toNat / 256 := by
  have := w.isLt
  rw [highByte, BitVec.extractLsb'_toNat, Nat.shiftRight_eq_div_pow]
  omega

theorem toNat_lowByte (w : Word) : (lowByte w).toNat = w.toNat % 256 := by
  rw [lowByte, BitVec.extractLsb'_toNat, Nat.shiftRight_zero]

@[simp] theorem wordOfBytes_high_low (w : Word) : wordOfBytes (highByte w) (lowByte w) = w := by
  apply BitVec.eq_of_toNat_eq
  rw [toNat_wordOfBytes, toNat_highByte, toNat_lowByte]
  omega

@[simp] theorem highByte_wordOfBytes (b0 b1 : Byte) : highByte (wordOfBytes b0 b1) = b0 := by
  apply BitVec.eq_of_toNat_eq
  have := b1.isLt
  rw [toNat_highByte, toNat_wordOfBytes]
  omega

@[simp] theorem lowByte_wordOfBytes (b0 b1 : Byte) : lowByte (wordOfBytes b0 b1) = b1 := by
  apply BitVec.eq_of_toNat_eq
  have := b1.isLt
  rw [toNat_lowByte, toNat_wordOfBytes]
  omega

@[simp] theorem blockOfWords_wordsOfBlock (b : Block) : blockOfWords (wordsOfBlock b) = b := rfl

/-- A block taken apart into bytes and put together again. -/
@[simp] theorem blockOfBytes_bytesOfBlock (b : Block) : blockOfBytes (bytesOfBlock b) = b := by
  simp [blockOfBytes, bytesOfBlock, bytesToWords, wordsToBytes, blockOfWords, wordsOfBlock]

/-- Eight bytes at the front of a sequence are one block of its own (44_cipher_facade.md R230). -/
theorem transformBlocks_block (t : SubkeyTable) (v : Vector Byte 8) (rest : List Byte) :
    transformBlocks t (v.toList ++ rest) =
      (bytesOfBlock (transform t (blockOfBytes v))).toList ++ transformBlocks t rest := by
  obtain ⟨⟨l⟩, hl⟩ := v
  match l, hl with
  | [b0, b1, b2, b3, b4, b5, b6, b7], _ => rfl

theorem transformBlocks_nil (t : SubkeyTable) : transformBlocks t [] = [] := rfl

/-- A sequence of whole blocks is as long after the transform as before it. -/
theorem transformBlocks_length (t : SubkeyTable) (bs : List Byte) (h : bs.length % 8 = 0) :
    (transformBlocks t bs).length = bs.length := by
  match bs, h with
  | [], _ => rfl
  | [_], h | [_, _], h | [_, _, _], h | [_, _, _, _], h | [_, _, _, _, _], h | [_, _, _, _, _, _], h
  | [_, _, _, _, _, _, _], h => simp at h
  | b0 :: b1 :: b2 :: b3 :: b4 :: b5 :: b6 :: b7 :: rest, h =>
    have ih := transformBlocks_length t rest (by simp only [List.length_cons] at h; omega)
    simp only [transformBlocks, List.length_append, Vector.length_toList, ih, List.length_cons]
    omega

/-- A count that `paddingCount` accepts is in `[1, 8]` and no longer than the sequence (41_codec.md R150). -/
theorem paddingCount_bounds {bs : List Byte} {n : Nat} (h : paddingCount bs = some n) :
    1 ≤ n ∧ n ≤ 8 ∧ n ≤ bs.length := by
  unfold paddingCount at h
  split at h
  · cases h
  · simp only at h
    split at h
    · cases h
    · split at h
      · cases h
      · split at h
        · cases h
        · cases h; omega

end Sys2Proof.Machine
end

