-- ==== Sys2Proof/Laws/Decode.lean ====
section
/-! SUPPORT. The fields of a command word as numbers, and a word put together from its fields. -/

namespace Sys2Proof

theorem toNat_fieldOp (c : Word) : (fieldOp c).toNat = c.toNat / 256 := by
  have := c.isLt
  rw [fieldOp, BitVec.extractLsb'_toNat, Nat.shiftRight_eq_div_pow]
  omega

theorem toNat_fieldZ (c : Word) : (fieldZ c).toNat = c.toNat / 16 % 16 := by
  rw [fieldZ, BitVec.extractLsb'_toNat, Nat.shiftRight_eq_div_pow]

theorem toNat_fieldT (c : Word) : (fieldT c).toNat = c.toNat / 8 % 2 := by
  rw [fieldT, BitVec.extractLsb'_toNat, Nat.shiftRight_eq_div_pow]

theorem toNat_fieldR (c : Word) : (fieldR c).toNat = c.toNat % 8 := by
  rw [fieldR, BitVec.extractLsb'_toNat, Nat.shiftRight_zero]

theorem toNat_commandWord (op : BitVec 8) (t : BitVec 1) (r : BitVec 3) :
    (commandWord op t r).toNat = op.toNat * 256 + t.toNat * 8 + r.toNat := by
  unfold commandWord
  rw [BitVec.toNat_append, ← Nat.shiftLeft_add_eq_or_of_lt r.isLt, BitVec.toNat_append,
    ← Nat.shiftLeft_add_eq_or_of_lt t.isLt, BitVec.toNat_append, ← Nat.shiftLeft_add_eq_or_of_lt (0#4).isLt]
  simp only [Nat.shiftLeft_eq, BitVec.toNat_ofNat]
  omega

/-- A word whose field `z` is 0 is the command word of its other fields (30_encoding.md R90). -/
theorem commandWord_fields (c : Word) (h : fieldZ c = 0) : commandWord (fieldOp c) (fieldT c) (fieldR c) = c := by
  apply BitVec.eq_of_toNat_eq
  have hz : c.toNat / 16 % 16 = 0 := by rw [← toNat_fieldZ, h]; rfl
  rw [toNat_commandWord, toNat_fieldOp, toNat_fieldT, toNat_fieldR]
  omega

@[simp] theorem fieldOp_commandWord (op : BitVec 8) (t : BitVec 1) (r : BitVec 3) : fieldOp (commandWord op t r) = op := by
  apply BitVec.eq_of_toNat_eq
  have := t.isLt
  have := r.isLt
  rw [toNat_fieldOp, toNat_commandWord]
  omega

@[simp] theorem fieldZ_commandWord (op : BitVec 8) (t : BitVec 1) (r : BitVec 3) : fieldZ (commandWord op t r) = 0 := by
  apply BitVec.eq_of_toNat_eq
  have := t.isLt
  have := r.isLt
  rw [toNat_fieldZ, toNat_commandWord]
  show _ = 0
  omega

@[simp] theorem fieldT_commandWord (op : BitVec 8) (t : BitVec 1) (r : BitVec 3) : fieldT (commandWord op t r) = t := by
  apply BitVec.eq_of_toNat_eq
  have := t.isLt
  have := r.isLt
  rw [toNat_fieldT, toNat_commandWord]
  omega

@[simp] theorem fieldR_commandWord (op : BitVec 8) (t : BitVec 1) (r : BitVec 3) : fieldR (commandWord op t r) = r := by
  apply BitVec.eq_of_toNat_eq
  have := t.isLt
  have := r.isLt
  rw [toNat_fieldR, toNat_commandWord]
  omega

theorem decodeC0_ok {c : Word} {i j : Instr} (h : decodeC0 c i = .ok j) : j = i ∧ fieldT c = 0 ∧ fieldR c = 0 := by
  unfold decodeC0 at h
  split at h
  · cases h
  · next hn =>
    obtain ⟨ht, hr⟩ := not_or.mp hn
    exact ⟨by cases h; rfl, not_not.mp ht, not_not.mp hr⟩

theorem decodeCT_ok {c : Word} {e d j : Instr} (h : decodeCT c e d = .ok j) :
    fieldR c = 0 ∧ ((j = e ∧ fieldT c = 0) ∨ (j = d ∧ fieldT c = 1)) := by
  unfold decodeCT at h
  split at h
  · cases h
  · next hr =>
    refine ⟨not_not.mp hr, ?_⟩
    split at h
    · next ht => exact .inl ⟨by cases h; rfl, ht⟩
    · next ht =>
      refine .inr ⟨by cases h; rfl, ?_⟩
      rcases BitVec.eq_zero_or_eq_one (fieldT c) with h0 | h1
      · exact absurd h0 ht
      · exact h1

theorem decodeCR_ok {c : Word} {e d : Fin 8 → Instr} {j : Instr} (h : decodeCR c e d = .ok j) :
    (j = e (fieldR c).toFin ∧ fieldT c = 0) ∨ (j = d (fieldR c).toFin ∧ fieldT c = 1) := by
  unfold decodeCR at h
  split at h
  · next ht => exact .inl ⟨by cases h; rfl, ht⟩
  · next ht =>
    refine .inr ⟨by cases h; rfl, ?_⟩
    rcases BitVec.eq_zero_or_eq_one (fieldT c) with h0 | h1
    · exact absurd h0 ht
    · exact h1

end Sys2Proof
end

