-- ==== Sys2Proof/Laws/State.lean ====
section
/-! SUPPORT. One lemma per field per update of State, all true by rfl, so that no proof unfolds an update. -/

namespace Sys2Proof.Machine

/-! ## setErr -/

@[simp] theorem State.setErr_opa (s : State) (c : Byte) : (s.setErr c).opa = s.opa := rfl
@[simp] theorem State.setErr_opb (s : State) (c : Byte) : (s.setErr c).opb = s.opb := rfl
@[simp] theorem State.setErr_res (s : State) (c : Byte) : (s.setErr c).res = s.res := rfl
@[simp] theorem State.setErr_x1 (s : State) (c : Byte) : (s.setErr c).x1 = s.x1 := rfl
@[simp] theorem State.setErr_x2 (s : State) (c : Byte) : (s.setErr c).x2 = s.x2 := rfl
@[simp] theorem State.setErr_x3 (s : State) (c : Byte) : (s.setErr c).x3 = s.x3 := rfl
@[simp] theorem State.setErr_x4 (s : State) (c : Byte) : (s.setErr c).x4 = s.x4 := rfl
@[simp] theorem State.setErr_bb (s : State) (c : Byte) : (s.setErr c).bb = s.bb := rfl
@[simp] theorem State.setErr_ek (s : State) (c : Byte) : (s.setErr c).ek = s.ek := rfl
@[simp] theorem State.setErr_dk (s : State) (c : Byte) : (s.setErr c).dk = s.dk := rfl
@[simp] theorem State.setErr_kin (s : State) (c : Byte) : (s.setErr c).kin = s.kin := rfl
@[simp] theorem State.setErr_klen (s : State) (c : Byte) : (s.setErr c).klen = s.klen := rfl
@[simp] theorem State.setErr_m (s : State) (c : Byte) : (s.setErr c).m = s.m := rfl
@[simp] theorem State.setErr_mlen (s : State) (c : Byte) : (s.setErr c).mlen = s.mlen := rfl
@[simp] theorem State.setErr_stat (s : State) (c : Byte) : (s.setErr c).stat = s.stat := rfl
@[simp] theorem State.setErr_err (s : State) (c : Byte) : (s.setErr c).err = c := rfl
@[simp] theorem State.setErr_cfg (s : State) (c : Byte) : (s.setErr c).cfg = s.cfg := rfl
@[simp] theorem State.setErr_resets (s : State) (c : Byte) : (s.setErr c).resets = s.resets := rfl
@[simp] theorem State.setErr_actions (s : State) (c : Byte) : (s.setErr c).actions = s.actions := rfl
@[simp] theorem State.setErr_replies (s : State) (c : Byte) : (s.setErr c).replies = s.replies := rfl

/-! ## setRes -/

@[simp] theorem State.setRes_opa (s : State) (w : Word) : (s.setRes w).opa = s.opa := rfl
@[simp] theorem State.setRes_opb (s : State) (w : Word) : (s.setRes w).opb = s.opb := rfl
@[simp] theorem State.setRes_res (s : State) (w : Word) : (s.setRes w).res = w := rfl
@[simp] theorem State.setRes_x1 (s : State) (w : Word) : (s.setRes w).x1 = s.x1 := rfl
@[simp] theorem State.setRes_x2 (s : State) (w : Word) : (s.setRes w).x2 = s.x2 := rfl
@[simp] theorem State.setRes_x3 (s : State) (w : Word) : (s.setRes w).x3 = s.x3 := rfl
@[simp] theorem State.setRes_x4 (s : State) (w : Word) : (s.setRes w).x4 = s.x4 := rfl
@[simp] theorem State.setRes_bb (s : State) (w : Word) : (s.setRes w).bb = s.bb := rfl
@[simp] theorem State.setRes_ek (s : State) (w : Word) : (s.setRes w).ek = s.ek := rfl
@[simp] theorem State.setRes_dk (s : State) (w : Word) : (s.setRes w).dk = s.dk := rfl
@[simp] theorem State.setRes_kin (s : State) (w : Word) : (s.setRes w).kin = s.kin := rfl
@[simp] theorem State.setRes_klen (s : State) (w : Word) : (s.setRes w).klen = s.klen := rfl
@[simp] theorem State.setRes_m (s : State) (w : Word) : (s.setRes w).m = s.m := rfl
@[simp] theorem State.setRes_mlen (s : State) (w : Word) : (s.setRes w).mlen = s.mlen := rfl
@[simp] theorem State.setRes_stat (s : State) (w : Word) : (s.setRes w).stat = s.stat := rfl
@[simp] theorem State.setRes_err (s : State) (w : Word) : (s.setRes w).err = s.err := rfl
@[simp] theorem State.setRes_cfg (s : State) (w : Word) : (s.setRes w).cfg = s.cfg := rfl
@[simp] theorem State.setRes_resets (s : State) (w : Word) : (s.setRes w).resets = s.resets := rfl
@[simp] theorem State.setRes_actions (s : State) (w : Word) : (s.setRes w).actions = s.actions := rfl
@[simp] theorem State.setRes_replies (s : State) (w : Word) : (s.setRes w).replies = s.replies := rfl

/-! ## setBlock -/

@[simp] theorem State.setBlock_opa (s : State) (b : Block) : (s.setBlock b).opa = s.opa := rfl
@[simp] theorem State.setBlock_opb (s : State) (b : Block) : (s.setBlock b).opb = s.opb := rfl
@[simp] theorem State.setBlock_res (s : State) (b : Block) : (s.setBlock b).res = s.res := rfl
@[simp] theorem State.setBlock_x1 (s : State) (b : Block) : (s.setBlock b).x1 = b.x1 := rfl
@[simp] theorem State.setBlock_x2 (s : State) (b : Block) : (s.setBlock b).x2 = b.x2 := rfl
@[simp] theorem State.setBlock_x3 (s : State) (b : Block) : (s.setBlock b).x3 = b.x3 := rfl
@[simp] theorem State.setBlock_x4 (s : State) (b : Block) : (s.setBlock b).x4 = b.x4 := rfl
@[simp] theorem State.setBlock_bb (s : State) (b : Block) : (s.setBlock b).bb = s.bb := rfl
@[simp] theorem State.setBlock_ek (s : State) (b : Block) : (s.setBlock b).ek = s.ek := rfl
@[simp] theorem State.setBlock_dk (s : State) (b : Block) : (s.setBlock b).dk = s.dk := rfl
@[simp] theorem State.setBlock_kin (s : State) (b : Block) : (s.setBlock b).kin = s.kin := rfl
@[simp] theorem State.setBlock_klen (s : State) (b : Block) : (s.setBlock b).klen = s.klen := rfl
@[simp] theorem State.setBlock_m (s : State) (b : Block) : (s.setBlock b).m = s.m := rfl
@[simp] theorem State.setBlock_mlen (s : State) (b : Block) : (s.setBlock b).mlen = s.mlen := rfl
@[simp] theorem State.setBlock_stat (s : State) (b : Block) : (s.setBlock b).stat = s.stat := rfl
@[simp] theorem State.setBlock_err (s : State) (b : Block) : (s.setBlock b).err = s.err := rfl
@[simp] theorem State.setBlock_cfg (s : State) (b : Block) : (s.setBlock b).cfg = s.cfg := rfl
@[simp] theorem State.setBlock_resets (s : State) (b : Block) : (s.setBlock b).resets = s.resets := rfl
@[simp] theorem State.setBlock_actions (s : State) (b : Block) : (s.setBlock b).actions = s.actions := rfl
@[simp] theorem State.setBlock_replies (s : State) (b : Block) : (s.setBlock b).replies = s.replies := rfl

/-! ## setBB -/

@[simp] theorem State.setBB_opa (s : State) (v : Vector Byte 8) : (s.setBB v).opa = s.opa := rfl
@[simp] theorem State.setBB_opb (s : State) (v : Vector Byte 8) : (s.setBB v).opb = s.opb := rfl
@[simp] theorem State.setBB_res (s : State) (v : Vector Byte 8) : (s.setBB v).res = s.res := rfl
@[simp] theorem State.setBB_x1 (s : State) (v : Vector Byte 8) : (s.setBB v).x1 = s.x1 := rfl
@[simp] theorem State.setBB_x2 (s : State) (v : Vector Byte 8) : (s.setBB v).x2 = s.x2 := rfl
@[simp] theorem State.setBB_x3 (s : State) (v : Vector Byte 8) : (s.setBB v).x3 = s.x3 := rfl
@[simp] theorem State.setBB_x4 (s : State) (v : Vector Byte 8) : (s.setBB v).x4 = s.x4 := rfl
@[simp] theorem State.setBB_bb (s : State) (v : Vector Byte 8) : (s.setBB v).bb = v := rfl
@[simp] theorem State.setBB_ek (s : State) (v : Vector Byte 8) : (s.setBB v).ek = s.ek := rfl
@[simp] theorem State.setBB_dk (s : State) (v : Vector Byte 8) : (s.setBB v).dk = s.dk := rfl
@[simp] theorem State.setBB_kin (s : State) (v : Vector Byte 8) : (s.setBB v).kin = s.kin := rfl
@[simp] theorem State.setBB_klen (s : State) (v : Vector Byte 8) : (s.setBB v).klen = s.klen := rfl
@[simp] theorem State.setBB_m (s : State) (v : Vector Byte 8) : (s.setBB v).m = s.m := rfl
@[simp] theorem State.setBB_mlen (s : State) (v : Vector Byte 8) : (s.setBB v).mlen = s.mlen := rfl
@[simp] theorem State.setBB_stat (s : State) (v : Vector Byte 8) : (s.setBB v).stat = s.stat := rfl
@[simp] theorem State.setBB_err (s : State) (v : Vector Byte 8) : (s.setBB v).err = s.err := rfl
@[simp] theorem State.setBB_cfg (s : State) (v : Vector Byte 8) : (s.setBB v).cfg = s.cfg := rfl
@[simp] theorem State.setBB_resets (s : State) (v : Vector Byte 8) : (s.setBB v).resets = s.resets := rfl
@[simp] theorem State.setBB_actions (s : State) (v : Vector Byte 8) : (s.setBB v).actions = s.actions := rfl
@[simp] theorem State.setBB_replies (s : State) (v : Vector Byte 8) : (s.setBB v).replies = s.replies := rfl

/-! ## setEK -/

@[simp] theorem State.setEK_opa (s : State) (t : SubkeyTable) : (s.setEK t).opa = s.opa := rfl
@[simp] theorem State.setEK_opb (s : State) (t : SubkeyTable) : (s.setEK t).opb = s.opb := rfl
@[simp] theorem State.setEK_res (s : State) (t : SubkeyTable) : (s.setEK t).res = s.res := rfl
@[simp] theorem State.setEK_x1 (s : State) (t : SubkeyTable) : (s.setEK t).x1 = s.x1 := rfl
@[simp] theorem State.setEK_x2 (s : State) (t : SubkeyTable) : (s.setEK t).x2 = s.x2 := rfl
@[simp] theorem State.setEK_x3 (s : State) (t : SubkeyTable) : (s.setEK t).x3 = s.x3 := rfl
@[simp] theorem State.setEK_x4 (s : State) (t : SubkeyTable) : (s.setEK t).x4 = s.x4 := rfl
@[simp] theorem State.setEK_bb (s : State) (t : SubkeyTable) : (s.setEK t).bb = s.bb := rfl
@[simp] theorem State.setEK_ek (s : State) (t : SubkeyTable) : (s.setEK t).ek = t := rfl
@[simp] theorem State.setEK_dk (s : State) (t : SubkeyTable) : (s.setEK t).dk = s.dk := rfl
@[simp] theorem State.setEK_kin (s : State) (t : SubkeyTable) : (s.setEK t).kin = s.kin := rfl
@[simp] theorem State.setEK_klen (s : State) (t : SubkeyTable) : (s.setEK t).klen = s.klen := rfl
@[simp] theorem State.setEK_m (s : State) (t : SubkeyTable) : (s.setEK t).m = s.m := rfl
@[simp] theorem State.setEK_mlen (s : State) (t : SubkeyTable) : (s.setEK t).mlen = s.mlen := rfl
@[simp] theorem State.setEK_stat (s : State) (t : SubkeyTable) : (s.setEK t).stat = s.stat := rfl
@[simp] theorem State.setEK_err (s : State) (t : SubkeyTable) : (s.setEK t).err = s.err := rfl
@[simp] theorem State.setEK_cfg (s : State) (t : SubkeyTable) : (s.setEK t).cfg = s.cfg := rfl
@[simp] theorem State.setEK_resets (s : State) (t : SubkeyTable) : (s.setEK t).resets = s.resets := rfl
@[simp] theorem State.setEK_actions (s : State) (t : SubkeyTable) : (s.setEK t).actions = s.actions := rfl
@[simp] theorem State.setEK_replies (s : State) (t : SubkeyTable) : (s.setEK t).replies = s.replies := rfl

/-! ## setDK -/

@[simp] theorem State.setDK_opa (s : State) (t : SubkeyTable) : (s.setDK t).opa = s.opa := rfl
@[simp] theorem State.setDK_opb (s : State) (t : SubkeyTable) : (s.setDK t).opb = s.opb := rfl
@[simp] theorem State.setDK_res (s : State) (t : SubkeyTable) : (s.setDK t).res = s.res := rfl
@[simp] theorem State.setDK_x1 (s : State) (t : SubkeyTable) : (s.setDK t).x1 = s.x1 := rfl
@[simp] theorem State.setDK_x2 (s : State) (t : SubkeyTable) : (s.setDK t).x2 = s.x2 := rfl
@[simp] theorem State.setDK_x3 (s : State) (t : SubkeyTable) : (s.setDK t).x3 = s.x3 := rfl
@[simp] theorem State.setDK_x4 (s : State) (t : SubkeyTable) : (s.setDK t).x4 = s.x4 := rfl
@[simp] theorem State.setDK_bb (s : State) (t : SubkeyTable) : (s.setDK t).bb = s.bb := rfl
@[simp] theorem State.setDK_ek (s : State) (t : SubkeyTable) : (s.setDK t).ek = s.ek := rfl
@[simp] theorem State.setDK_dk (s : State) (t : SubkeyTable) : (s.setDK t).dk = t := rfl
@[simp] theorem State.setDK_kin (s : State) (t : SubkeyTable) : (s.setDK t).kin = s.kin := rfl
@[simp] theorem State.setDK_klen (s : State) (t : SubkeyTable) : (s.setDK t).klen = s.klen := rfl
@[simp] theorem State.setDK_m (s : State) (t : SubkeyTable) : (s.setDK t).m = s.m := rfl
@[simp] theorem State.setDK_mlen (s : State) (t : SubkeyTable) : (s.setDK t).mlen = s.mlen := rfl
@[simp] theorem State.setDK_stat (s : State) (t : SubkeyTable) : (s.setDK t).stat = s.stat := rfl
@[simp] theorem State.setDK_err (s : State) (t : SubkeyTable) : (s.setDK t).err = s.err := rfl
@[simp] theorem State.setDK_cfg (s : State) (t : SubkeyTable) : (s.setDK t).cfg = s.cfg := rfl
@[simp] theorem State.setDK_resets (s : State) (t : SubkeyTable) : (s.setDK t).resets = s.resets := rfl
@[simp] theorem State.setDK_actions (s : State) (t : SubkeyTable) : (s.setDK t).actions = s.actions := rfl
@[simp] theorem State.setDK_replies (s : State) (t : SubkeyTable) : (s.setDK t).replies = s.replies := rfl

/-! ## setEkv -/

@[simp] theorem State.setEkv_opa (s : State) (b : Bool) : (s.setEkv b).opa = s.opa := rfl
@[simp] theorem State.setEkv_opb (s : State) (b : Bool) : (s.setEkv b).opb = s.opb := rfl
@[simp] theorem State.setEkv_res (s : State) (b : Bool) : (s.setEkv b).res = s.res := rfl
@[simp] theorem State.setEkv_x1 (s : State) (b : Bool) : (s.setEkv b).x1 = s.x1 := rfl
@[simp] theorem State.setEkv_x2 (s : State) (b : Bool) : (s.setEkv b).x2 = s.x2 := rfl
@[simp] theorem State.setEkv_x3 (s : State) (b : Bool) : (s.setEkv b).x3 = s.x3 := rfl
@[simp] theorem State.setEkv_x4 (s : State) (b : Bool) : (s.setEkv b).x4 = s.x4 := rfl
@[simp] theorem State.setEkv_bb (s : State) (b : Bool) : (s.setEkv b).bb = s.bb := rfl
@[simp] theorem State.setEkv_ek (s : State) (b : Bool) : (s.setEkv b).ek = s.ek := rfl
@[simp] theorem State.setEkv_dk (s : State) (b : Bool) : (s.setEkv b).dk = s.dk := rfl
@[simp] theorem State.setEkv_kin (s : State) (b : Bool) : (s.setEkv b).kin = s.kin := rfl
@[simp] theorem State.setEkv_klen (s : State) (b : Bool) : (s.setEkv b).klen = s.klen := rfl
@[simp] theorem State.setEkv_m (s : State) (b : Bool) : (s.setEkv b).m = s.m := rfl
@[simp] theorem State.setEkv_mlen (s : State) (b : Bool) : (s.setEkv b).mlen = s.mlen := rfl
@[simp] theorem State.setEkv_stat (s : State) (b : Bool) : (s.setEkv b).stat = withEkv s.stat b := rfl
@[simp] theorem State.setEkv_err (s : State) (b : Bool) : (s.setEkv b).err = s.err := rfl
@[simp] theorem State.setEkv_cfg (s : State) (b : Bool) : (s.setEkv b).cfg = s.cfg := rfl
@[simp] theorem State.setEkv_resets (s : State) (b : Bool) : (s.setEkv b).resets = s.resets := rfl
@[simp] theorem State.setEkv_actions (s : State) (b : Bool) : (s.setEkv b).actions = s.actions := rfl
@[simp] theorem State.setEkv_replies (s : State) (b : Bool) : (s.setEkv b).replies = s.replies := rfl

/-! ## setDkv -/

@[simp] theorem State.setDkv_opa (s : State) (b : Bool) : (s.setDkv b).opa = s.opa := rfl
@[simp] theorem State.setDkv_opb (s : State) (b : Bool) : (s.setDkv b).opb = s.opb := rfl
@[simp] theorem State.setDkv_res (s : State) (b : Bool) : (s.setDkv b).res = s.res := rfl
@[simp] theorem State.setDkv_x1 (s : State) (b : Bool) : (s.setDkv b).x1 = s.x1 := rfl
@[simp] theorem State.setDkv_x2 (s : State) (b : Bool) : (s.setDkv b).x2 = s.x2 := rfl
@[simp] theorem State.setDkv_x3 (s : State) (b : Bool) : (s.setDkv b).x3 = s.x3 := rfl
@[simp] theorem State.setDkv_x4 (s : State) (b : Bool) : (s.setDkv b).x4 = s.x4 := rfl
@[simp] theorem State.setDkv_bb (s : State) (b : Bool) : (s.setDkv b).bb = s.bb := rfl
@[simp] theorem State.setDkv_ek (s : State) (b : Bool) : (s.setDkv b).ek = s.ek := rfl
@[simp] theorem State.setDkv_dk (s : State) (b : Bool) : (s.setDkv b).dk = s.dk := rfl
@[simp] theorem State.setDkv_kin (s : State) (b : Bool) : (s.setDkv b).kin = s.kin := rfl
@[simp] theorem State.setDkv_klen (s : State) (b : Bool) : (s.setDkv b).klen = s.klen := rfl
@[simp] theorem State.setDkv_m (s : State) (b : Bool) : (s.setDkv b).m = s.m := rfl
@[simp] theorem State.setDkv_mlen (s : State) (b : Bool) : (s.setDkv b).mlen = s.mlen := rfl
@[simp] theorem State.setDkv_stat (s : State) (b : Bool) : (s.setDkv b).stat = withDkv s.stat b := rfl
@[simp] theorem State.setDkv_err (s : State) (b : Bool) : (s.setDkv b).err = s.err := rfl
@[simp] theorem State.setDkv_cfg (s : State) (b : Bool) : (s.setDkv b).cfg = s.cfg := rfl
@[simp] theorem State.setDkv_resets (s : State) (b : Bool) : (s.setDkv b).resets = s.resets := rfl
@[simp] theorem State.setDkv_actions (s : State) (b : Bool) : (s.setDkv b).actions = s.actions := rfl
@[simp] theorem State.setDkv_replies (s : State) (b : Bool) : (s.setDkv b).replies = s.replies := rfl

/-! ## setMlen -/

@[simp] theorem State.setMlen_opa (s : State) (n : Nat) : (s.setMlen n).opa = s.opa := rfl
@[simp] theorem State.setMlen_opb (s : State) (n : Nat) : (s.setMlen n).opb = s.opb := rfl
@[simp] theorem State.setMlen_res (s : State) (n : Nat) : (s.setMlen n).res = s.res := rfl
@[simp] theorem State.setMlen_x1 (s : State) (n : Nat) : (s.setMlen n).x1 = s.x1 := rfl
@[simp] theorem State.setMlen_x2 (s : State) (n : Nat) : (s.setMlen n).x2 = s.x2 := rfl
@[simp] theorem State.setMlen_x3 (s : State) (n : Nat) : (s.setMlen n).x3 = s.x3 := rfl
@[simp] theorem State.setMlen_x4 (s : State) (n : Nat) : (s.setMlen n).x4 = s.x4 := rfl
@[simp] theorem State.setMlen_bb (s : State) (n : Nat) : (s.setMlen n).bb = s.bb := rfl
@[simp] theorem State.setMlen_ek (s : State) (n : Nat) : (s.setMlen n).ek = s.ek := rfl
@[simp] theorem State.setMlen_dk (s : State) (n : Nat) : (s.setMlen n).dk = s.dk := rfl
@[simp] theorem State.setMlen_kin (s : State) (n : Nat) : (s.setMlen n).kin = s.kin := rfl
@[simp] theorem State.setMlen_klen (s : State) (n : Nat) : (s.setMlen n).klen = s.klen := rfl
@[simp] theorem State.setMlen_m (s : State) (n : Nat) : (s.setMlen n).m = s.m := rfl
@[simp] theorem State.setMlen_mlen (s : State) (n : Nat) : (s.setMlen n).mlen = BitVec.ofNat 32 n := rfl
@[simp] theorem State.setMlen_stat (s : State) (n : Nat) : (s.setMlen n).stat = s.stat := rfl
@[simp] theorem State.setMlen_err (s : State) (n : Nat) : (s.setMlen n).err = s.err := rfl
@[simp] theorem State.setMlen_cfg (s : State) (n : Nat) : (s.setMlen n).cfg = s.cfg := rfl
@[simp] theorem State.setMlen_resets (s : State) (n : Nat) : (s.setMlen n).resets = s.resets := rfl
@[simp] theorem State.setMlen_actions (s : State) (n : Nat) : (s.setMlen n).actions = s.actions := rfl
@[simp] theorem State.setMlen_replies (s : State) (n : Nat) : (s.setMlen n).replies = s.replies := rfl

/-! ## writeMessage -/

@[simp] theorem State.writeMessage_opa (s : State) (a : Nat) (bs : List Byte) : (s.writeMessage a bs).opa = s.opa := rfl
@[simp] theorem State.writeMessage_opb (s : State) (a : Nat) (bs : List Byte) : (s.writeMessage a bs).opb = s.opb := rfl
@[simp] theorem State.writeMessage_res (s : State) (a : Nat) (bs : List Byte) : (s.writeMessage a bs).res = s.res := rfl
@[simp] theorem State.writeMessage_x1 (s : State) (a : Nat) (bs : List Byte) : (s.writeMessage a bs).x1 = s.x1 := rfl
@[simp] theorem State.writeMessage_x2 (s : State) (a : Nat) (bs : List Byte) : (s.writeMessage a bs).x2 = s.x2 := rfl
@[simp] theorem State.writeMessage_x3 (s : State) (a : Nat) (bs : List Byte) : (s.writeMessage a bs).x3 = s.x3 := rfl
@[simp] theorem State.writeMessage_x4 (s : State) (a : Nat) (bs : List Byte) : (s.writeMessage a bs).x4 = s.x4 := rfl
@[simp] theorem State.writeMessage_bb (s : State) (a : Nat) (bs : List Byte) : (s.writeMessage a bs).bb = s.bb := rfl
@[simp] theorem State.writeMessage_ek (s : State) (a : Nat) (bs : List Byte) : (s.writeMessage a bs).ek = s.ek := rfl
@[simp] theorem State.writeMessage_dk (s : State) (a : Nat) (bs : List Byte) : (s.writeMessage a bs).dk = s.dk := rfl
@[simp] theorem State.writeMessage_kin (s : State) (a : Nat) (bs : List Byte) : (s.writeMessage a bs).kin = s.kin := rfl
@[simp] theorem State.writeMessage_klen (s : State) (a : Nat) (bs : List Byte) : (s.writeMessage a bs).klen = s.klen := rfl
@[simp] theorem State.writeMessage_m (s : State) (a : Nat) (bs : List Byte) : (s.writeMessage a bs).m = Memory.writeRange s.m a bs := rfl
@[simp] theorem State.writeMessage_mlen (s : State) (a : Nat) (bs : List Byte) : (s.writeMessage a bs).mlen = s.mlen := rfl
@[simp] theorem State.writeMessage_stat (s : State) (a : Nat) (bs : List Byte) : (s.writeMessage a bs).stat = s.stat := rfl
@[simp] theorem State.writeMessage_err (s : State) (a : Nat) (bs : List Byte) : (s.writeMessage a bs).err = s.err := rfl
@[simp] theorem State.writeMessage_cfg (s : State) (a : Nat) (bs : List Byte) : (s.writeMessage a bs).cfg = s.cfg := rfl
@[simp] theorem State.writeMessage_resets (s : State) (a : Nat) (bs : List Byte) : (s.writeMessage a bs).resets = s.resets := rfl
@[simp] theorem State.writeMessage_actions (s : State) (a : Nat) (bs : List Byte) : (s.writeMessage a bs).actions = s.actions := rfl
@[simp] theorem State.writeMessage_replies (s : State) (a : Nat) (bs : List Byte) : (s.writeMessage a bs).replies = s.replies := rfl

/-! ## done -/

@[simp] theorem State.done_opa (s : State) : (s.done).opa = s.opa := rfl
@[simp] theorem State.done_opb (s : State) : (s.done).opb = s.opb := rfl
@[simp] theorem State.done_res (s : State) : (s.done).res = s.res := rfl
@[simp] theorem State.done_x1 (s : State) : (s.done).x1 = s.x1 := rfl
@[simp] theorem State.done_x2 (s : State) : (s.done).x2 = s.x2 := rfl
@[simp] theorem State.done_x3 (s : State) : (s.done).x3 = s.x3 := rfl
@[simp] theorem State.done_x4 (s : State) : (s.done).x4 = s.x4 := rfl
@[simp] theorem State.done_bb (s : State) : (s.done).bb = s.bb := rfl
@[simp] theorem State.done_ek (s : State) : (s.done).ek = s.ek := rfl
@[simp] theorem State.done_dk (s : State) : (s.done).dk = s.dk := rfl
@[simp] theorem State.done_kin (s : State) : (s.done).kin = s.kin := rfl
@[simp] theorem State.done_klen (s : State) : (s.done).klen = s.klen := rfl
@[simp] theorem State.done_m (s : State) : (s.done).m = s.m := rfl
@[simp] theorem State.done_mlen (s : State) : (s.done).mlen = s.mlen := rfl
@[simp] theorem State.done_stat (s : State) : (s.done).stat = s.stat := rfl
@[simp] theorem State.done_err (s : State) : (s.done).err = okCode := rfl
@[simp] theorem State.done_cfg (s : State) : (s.done).cfg = s.cfg := rfl
@[simp] theorem State.done_resets (s : State) : (s.done).resets = s.resets := rfl
@[simp] theorem State.done_actions (s : State) : (s.done).actions = s.actions := rfl
@[simp] theorem State.done_replies (s : State) : (s.done).replies = s.replies := rfl

/-! ## raise -/

@[simp] theorem State.raise_opa (s : State) (e : ErrorKind) : (s.raise e).opa = s.opa := rfl
@[simp] theorem State.raise_opb (s : State) (e : ErrorKind) : (s.raise e).opb = s.opb := rfl
@[simp] theorem State.raise_res (s : State) (e : ErrorKind) : (s.raise e).res = s.res := rfl
@[simp] theorem State.raise_x1 (s : State) (e : ErrorKind) : (s.raise e).x1 = s.x1 := rfl
@[simp] theorem State.raise_x2 (s : State) (e : ErrorKind) : (s.raise e).x2 = s.x2 := rfl
@[simp] theorem State.raise_x3 (s : State) (e : ErrorKind) : (s.raise e).x3 = s.x3 := rfl
@[simp] theorem State.raise_x4 (s : State) (e : ErrorKind) : (s.raise e).x4 = s.x4 := rfl
@[simp] theorem State.raise_bb (s : State) (e : ErrorKind) : (s.raise e).bb = s.bb := rfl
@[simp] theorem State.raise_ek (s : State) (e : ErrorKind) : (s.raise e).ek = s.ek := rfl
@[simp] theorem State.raise_dk (s : State) (e : ErrorKind) : (s.raise e).dk = s.dk := rfl
@[simp] theorem State.raise_kin (s : State) (e : ErrorKind) : (s.raise e).kin = s.kin := rfl
@[simp] theorem State.raise_klen (s : State) (e : ErrorKind) : (s.raise e).klen = s.klen := rfl
@[simp] theorem State.raise_m (s : State) (e : ErrorKind) : (s.raise e).m = s.m := rfl
@[simp] theorem State.raise_mlen (s : State) (e : ErrorKind) : (s.raise e).mlen = s.mlen := rfl
@[simp] theorem State.raise_stat (s : State) (e : ErrorKind) : (s.raise e).stat = s.stat := rfl
@[simp] theorem State.raise_err (s : State) (e : ErrorKind) : (s.raise e).err = e.code := rfl
@[simp] theorem State.raise_cfg (s : State) (e : ErrorKind) : (s.raise e).cfg = s.cfg := rfl
@[simp] theorem State.raise_resets (s : State) (e : ErrorKind) : (s.raise e).resets = s.resets := rfl
@[simp] theorem State.raise_actions (s : State) (e : ErrorKind) : (s.raise e).actions = s.actions := rfl
@[simp] theorem State.raise_replies (s : State) (e : ErrorKind) : (s.raise e).replies = s.replies := rfl

/-! ## resetEvent -/

@[simp] theorem State.resetEvent_opa (s : State) : (s.resetEvent).opa = State.reset.opa := rfl
@[simp] theorem State.resetEvent_opb (s : State) : (s.resetEvent).opb = State.reset.opb := rfl
@[simp] theorem State.resetEvent_res (s : State) : (s.resetEvent).res = State.reset.res := rfl
@[simp] theorem State.resetEvent_x1 (s : State) : (s.resetEvent).x1 = State.reset.x1 := rfl
@[simp] theorem State.resetEvent_x2 (s : State) : (s.resetEvent).x2 = State.reset.x2 := rfl
@[simp] theorem State.resetEvent_x3 (s : State) : (s.resetEvent).x3 = State.reset.x3 := rfl
@[simp] theorem State.resetEvent_x4 (s : State) : (s.resetEvent).x4 = State.reset.x4 := rfl
@[simp] theorem State.resetEvent_bb (s : State) : (s.resetEvent).bb = State.reset.bb := rfl
@[simp] theorem State.resetEvent_ek (s : State) : (s.resetEvent).ek = State.reset.ek := rfl
@[simp] theorem State.resetEvent_dk (s : State) : (s.resetEvent).dk = State.reset.dk := rfl
@[simp] theorem State.resetEvent_kin (s : State) : (s.resetEvent).kin = State.reset.kin := rfl
@[simp] theorem State.resetEvent_klen (s : State) : (s.resetEvent).klen = State.reset.klen := rfl
@[simp] theorem State.resetEvent_m (s : State) : (s.resetEvent).m = State.reset.m := rfl
@[simp] theorem State.resetEvent_mlen (s : State) : (s.resetEvent).mlen = State.reset.mlen := rfl
@[simp] theorem State.resetEvent_stat (s : State) : (s.resetEvent).stat = State.reset.stat := rfl
@[simp] theorem State.resetEvent_err (s : State) : (s.resetEvent).err = State.reset.err := rfl
@[simp] theorem State.resetEvent_cfg (s : State) : (s.resetEvent).cfg = s.cfg := rfl
@[simp] theorem State.resetEvent_resets (s : State) : (s.resetEvent).resets = s.resets + 1 := rfl
@[simp] theorem State.resetEvent_actions (s : State) : (s.resetEvent).actions = s.actions := rfl
@[simp] theorem State.resetEvent_replies (s : State) : (s.resetEvent).replies = s.replies := rfl

/-! ## reset -/

@[simp] theorem State.reset_opa : State.reset.opa = 0 := rfl
@[simp] theorem State.reset_opb : State.reset.opb = 0 := rfl
@[simp] theorem State.reset_res : State.reset.res = 0 := rfl
@[simp] theorem State.reset_x1 : State.reset.x1 = 0 := rfl
@[simp] theorem State.reset_x2 : State.reset.x2 = 0 := rfl
@[simp] theorem State.reset_x3 : State.reset.x3 = 0 := rfl
@[simp] theorem State.reset_x4 : State.reset.x4 = 0 := rfl
@[simp] theorem State.reset_bb : State.reset.bb = Vector.replicate 8 0 := rfl
@[simp] theorem State.reset_ek : State.reset.ek = Vector.replicate 52 0 := rfl
@[simp] theorem State.reset_dk : State.reset.dk = Vector.replicate 52 0 := rfl
@[simp] theorem State.reset_kin : State.reset.kin = [] := rfl
@[simp] theorem State.reset_klen : State.reset.klen = 0 := rfl
@[simp] theorem State.reset_m : State.reset.m = [] := rfl
@[simp] theorem State.reset_mlen : State.reset.mlen = 0 := rfl
@[simp] theorem State.reset_stat : State.reset.stat = 0 := rfl
@[simp] theorem State.reset_err : State.reset.err = 0 := rfl
@[simp] theorem State.reset_cfg : State.reset.cfg = Config.specDefault := rfl
@[simp] theorem State.reset_resets : State.reset.resets = 0 := rfl
@[simp] theorem State.reset_actions : State.reset.actions = [] := rfl
@[simp] theorem State.reset_replies : State.reset.replies = [] := rfl

/-! ## The derived reads of the state depend only on the fields they read -/

@[simp] theorem State.setErr_messageByte (s : State) (c : Byte) (k : Nat) : (s.setErr c).messageByte k = s.messageByte k := rfl
@[simp] theorem State.setErr_keyByte (s : State) (c : Byte) (k : Nat) : (s.setErr c).keyByte k = s.keyByte k := rfl
@[simp] theorem State.setErr_message (s : State) (c : Byte) : (s.setErr c).message = s.message := rfl
@[simp] theorem State.setErr_keyBytes (s : State) (c : Byte) : (s.setErr c).keyBytes = s.keyBytes := rfl
@[simp] theorem State.setErr_block (s : State) (c : Byte) : (s.setErr c).block = s.block := rfl
@[simp] theorem State.setErr_ekv (s : State) (c : Byte) : (s.setErr c).ekv = s.ekv := rfl
@[simp] theorem State.setErr_dkv (s : State) (c : Byte) : (s.setErr c).dkv = s.dkv := rfl

@[simp] theorem State.setRes_messageByte (s : State) (w : Word) (k : Nat) : (s.setRes w).messageByte k = s.messageByte k := rfl
@[simp] theorem State.setRes_keyByte (s : State) (w : Word) (k : Nat) : (s.setRes w).keyByte k = s.keyByte k := rfl
@[simp] theorem State.setRes_message (s : State) (w : Word) : (s.setRes w).message = s.message := rfl
@[simp] theorem State.setRes_keyBytes (s : State) (w : Word) : (s.setRes w).keyBytes = s.keyBytes := rfl
@[simp] theorem State.setRes_block (s : State) (w : Word) : (s.setRes w).block = s.block := rfl
@[simp] theorem State.setRes_ekv (s : State) (w : Word) : (s.setRes w).ekv = s.ekv := rfl
@[simp] theorem State.setRes_dkv (s : State) (w : Word) : (s.setRes w).dkv = s.dkv := rfl

@[simp] theorem State.setBlock_messageByte (s : State) (b : Block) (k : Nat) : (s.setBlock b).messageByte k = s.messageByte k := rfl
@[simp] theorem State.setBlock_keyByte (s : State) (b : Block) (k : Nat) : (s.setBlock b).keyByte k = s.keyByte k := rfl
@[simp] theorem State.setBlock_message (s : State) (b : Block) : (s.setBlock b).message = s.message := rfl
@[simp] theorem State.setBlock_keyBytes (s : State) (b : Block) : (s.setBlock b).keyBytes = s.keyBytes := rfl
@[simp] theorem State.setBlock_ekv (s : State) (b : Block) : (s.setBlock b).ekv = s.ekv := rfl
@[simp] theorem State.setBlock_dkv (s : State) (b : Block) : (s.setBlock b).dkv = s.dkv := rfl

@[simp] theorem State.setBB_messageByte (s : State) (v : Vector Byte 8) (k : Nat) : (s.setBB v).messageByte k = s.messageByte k := rfl
@[simp] theorem State.setBB_keyByte (s : State) (v : Vector Byte 8) (k : Nat) : (s.setBB v).keyByte k = s.keyByte k := rfl
@[simp] theorem State.setBB_message (s : State) (v : Vector Byte 8) : (s.setBB v).message = s.message := rfl
@[simp] theorem State.setBB_keyBytes (s : State) (v : Vector Byte 8) : (s.setBB v).keyBytes = s.keyBytes := rfl
@[simp] theorem State.setBB_block (s : State) (v : Vector Byte 8) : (s.setBB v).block = s.block := rfl
@[simp] theorem State.setBB_ekv (s : State) (v : Vector Byte 8) : (s.setBB v).ekv = s.ekv := rfl
@[simp] theorem State.setBB_dkv (s : State) (v : Vector Byte 8) : (s.setBB v).dkv = s.dkv := rfl

@[simp] theorem State.setEK_messageByte (s : State) (t : SubkeyTable) (k : Nat) : (s.setEK t).messageByte k = s.messageByte k := rfl
@[simp] theorem State.setEK_keyByte (s : State) (t : SubkeyTable) (k : Nat) : (s.setEK t).keyByte k = s.keyByte k := rfl
@[simp] theorem State.setEK_message (s : State) (t : SubkeyTable) : (s.setEK t).message = s.message := rfl
@[simp] theorem State.setEK_keyBytes (s : State) (t : SubkeyTable) : (s.setEK t).keyBytes = s.keyBytes := rfl
@[simp] theorem State.setEK_block (s : State) (t : SubkeyTable) : (s.setEK t).block = s.block := rfl
@[simp] theorem State.setEK_ekv (s : State) (t : SubkeyTable) : (s.setEK t).ekv = s.ekv := rfl
@[simp] theorem State.setEK_dkv (s : State) (t : SubkeyTable) : (s.setEK t).dkv = s.dkv := rfl

@[simp] theorem State.setDK_messageByte (s : State) (t : SubkeyTable) (k : Nat) : (s.setDK t).messageByte k = s.messageByte k := rfl
@[simp] theorem State.setDK_keyByte (s : State) (t : SubkeyTable) (k : Nat) : (s.setDK t).keyByte k = s.keyByte k := rfl
@[simp] theorem State.setDK_message (s : State) (t : SubkeyTable) : (s.setDK t).message = s.message := rfl
@[simp] theorem State.setDK_keyBytes (s : State) (t : SubkeyTable) : (s.setDK t).keyBytes = s.keyBytes := rfl
@[simp] theorem State.setDK_block (s : State) (t : SubkeyTable) : (s.setDK t).block = s.block := rfl
@[simp] theorem State.setDK_ekv (s : State) (t : SubkeyTable) : (s.setDK t).ekv = s.ekv := rfl
@[simp] theorem State.setDK_dkv (s : State) (t : SubkeyTable) : (s.setDK t).dkv = s.dkv := rfl

@[simp] theorem State.setEkv_messageByte (s : State) (b : Bool) (k : Nat) : (s.setEkv b).messageByte k = s.messageByte k := rfl
@[simp] theorem State.setEkv_keyByte (s : State) (b : Bool) (k : Nat) : (s.setEkv b).keyByte k = s.keyByte k := rfl
@[simp] theorem State.setEkv_message (s : State) (b : Bool) : (s.setEkv b).message = s.message := rfl
@[simp] theorem State.setEkv_keyBytes (s : State) (b : Bool) : (s.setEkv b).keyBytes = s.keyBytes := rfl
@[simp] theorem State.setEkv_block (s : State) (b : Bool) : (s.setEkv b).block = s.block := rfl

@[simp] theorem State.setDkv_messageByte (s : State) (b : Bool) (k : Nat) : (s.setDkv b).messageByte k = s.messageByte k := rfl
@[simp] theorem State.setDkv_keyByte (s : State) (b : Bool) (k : Nat) : (s.setDkv b).keyByte k = s.keyByte k := rfl
@[simp] theorem State.setDkv_message (s : State) (b : Bool) : (s.setDkv b).message = s.message := rfl
@[simp] theorem State.setDkv_keyBytes (s : State) (b : Bool) : (s.setDkv b).keyBytes = s.keyBytes := rfl
@[simp] theorem State.setDkv_block (s : State) (b : Bool) : (s.setDkv b).block = s.block := rfl

@[simp] theorem State.setMlen_messageByte (s : State) (n : Nat) (k : Nat) : (s.setMlen n).messageByte k = s.messageByte k := rfl
@[simp] theorem State.setMlen_keyByte (s : State) (n : Nat) (k : Nat) : (s.setMlen n).keyByte k = s.keyByte k := rfl
@[simp] theorem State.setMlen_keyBytes (s : State) (n : Nat) : (s.setMlen n).keyBytes = s.keyBytes := rfl
@[simp] theorem State.setMlen_block (s : State) (n : Nat) : (s.setMlen n).block = s.block := rfl
@[simp] theorem State.setMlen_ekv (s : State) (n : Nat) : (s.setMlen n).ekv = s.ekv := rfl
@[simp] theorem State.setMlen_dkv (s : State) (n : Nat) : (s.setMlen n).dkv = s.dkv := rfl

@[simp] theorem State.writeMessage_keyByte (s : State) (a : Nat) (bs : List Byte) (k : Nat) : (s.writeMessage a bs).keyByte k = s.keyByte k := rfl
@[simp] theorem State.writeMessage_keyBytes (s : State) (a : Nat) (bs : List Byte) : (s.writeMessage a bs).keyBytes = s.keyBytes := rfl
@[simp] theorem State.writeMessage_block (s : State) (a : Nat) (bs : List Byte) : (s.writeMessage a bs).block = s.block := rfl
@[simp] theorem State.writeMessage_ekv (s : State) (a : Nat) (bs : List Byte) : (s.writeMessage a bs).ekv = s.ekv := rfl
@[simp] theorem State.writeMessage_dkv (s : State) (a : Nat) (bs : List Byte) : (s.writeMessage a bs).dkv = s.dkv := rfl

@[simp] theorem State.done_messageByte (s : State) (k : Nat) : (s.done).messageByte k = s.messageByte k := rfl
@[simp] theorem State.done_keyByte (s : State) (k : Nat) : (s.done).keyByte k = s.keyByte k := rfl
@[simp] theorem State.done_message (s : State) : (s.done).message = s.message := rfl
@[simp] theorem State.done_keyBytes (s : State) : (s.done).keyBytes = s.keyBytes := rfl
@[simp] theorem State.done_block (s : State) : (s.done).block = s.block := rfl
@[simp] theorem State.done_ekv (s : State) : (s.done).ekv = s.ekv := rfl
@[simp] theorem State.done_dkv (s : State) : (s.done).dkv = s.dkv := rfl

@[simp] theorem State.raise_messageByte (s : State) (e : ErrorKind) (k : Nat) : (s.raise e).messageByte k = s.messageByte k := rfl
@[simp] theorem State.raise_keyByte (s : State) (e : ErrorKind) (k : Nat) : (s.raise e).keyByte k = s.keyByte k := rfl
@[simp] theorem State.raise_message (s : State) (e : ErrorKind) : (s.raise e).message = s.message := rfl
@[simp] theorem State.raise_keyBytes (s : State) (e : ErrorKind) : (s.raise e).keyBytes = s.keyBytes := rfl
@[simp] theorem State.raise_block (s : State) (e : ErrorKind) : (s.raise e).block = s.block := rfl
@[simp] theorem State.raise_ekv (s : State) (e : ErrorKind) : (s.raise e).ekv = s.ekv := rfl
@[simp] theorem State.raise_dkv (s : State) (e : ErrorKind) : (s.raise e).dkv = s.dkv := rfl

@[simp] theorem State.setBlock_block (s : State) (b : Block) : (s.setBlock b).block = b := rfl

end Sys2Proof.Machine
end

