-- ==== Sys2Proof/Laws/Memory.lean ====
section
/-! SUPPORT. What the operations over byte buffers do: read after write, the bytes of a range, and the canonical form. -/

namespace Sys2Proof.Machine

/-! ## One byte -/

theorem Memory.lookup_write (b : Memory) (a : Nat) (v : Byte) (k : Nat) :
    Memory.lookup (Memory.write b a v) k = if k = a then some v else Memory.lookup b k := by
  induction b with
  | nil => simp [Memory.write, Memory.lookup, eq_comm]
  | cons x rest ih =>
    obtain ⟨j, w⟩ := x
    simp only [Memory.write]
    split
    · simp [Memory.lookup, eq_comm]
    · split
      · subst_vars
        by_cases hk : j = k <;> simp [Memory.lookup, hk, Ne.symm]
      · simp only [Memory.lookup, ih]
        by_cases hj : j = k
        · subst hj
          have : j ≠ a := by omega
          simp [this]
        · simp [hj]

/-- Where a byte is not listed, the lookup finds nothing. -/
theorem Memory.lookup_eq_none (b : Memory) (a : Nat) (h : ∀ x ∈ b, x.1 ≠ a) : Memory.lookup b a = none := by
  induction b with
  | nil => rfl
  | cons x rest ih =>
    obtain ⟨j, w⟩ := x
    have hj : j ≠ a := h (j, w) (by simp)
    simp [Memory.lookup, hj, ih fun y hy => h y (by simp [hy])]

theorem Memory.read_write (free : Nat → Byte) (b : Memory) (a : Nat) (v : Byte) (k : Nat) :
    Memory.read free (Memory.write b a v) k = if k = a then v else Memory.read free b k := by
  unfold Memory.read
  rw [Memory.lookup_write b a v k]
  split <;> simp

/-- A buffer in which nothing has been written since the reset holds free bytes. -/
@[simp] theorem Memory.read_nil (free : Nat → Byte) (a : Nat) : Memory.read free [] a = free a := rfl

/-- The entries of a buffer after a write: the written one, and entries that were there before. -/
theorem Memory.mem_write (b : Memory) (a : Nat) (v : Byte) (x : Host.Cell) (hx : x ∈ Memory.write b a v) :
    x = (a, v) ∨ x ∈ b := by
  induction b with
  | nil => simpa [Memory.write] using hx
  | cons y rest ih =>
    obtain ⟨j, w⟩ := y
    simp only [Memory.write] at hx
    split at hx
    · simpa using hx
    · split at hx
      · rcases List.mem_cons.mp hx with h | h
        · exact .inl h
        · exact .inr (by simp [h])
      · rcases List.mem_cons.mp hx with h | h
        · exact .inr (by simp [h])
        · rcases ih h with h | h
          · exact .inl h
          · exact .inr (by simp [h])

theorem Memory.write_wf (b : Memory) (a : Nat) (v : Byte) (h : Memory.wf b) : Memory.wf (Memory.write b a v) := by
  induction b with
  | nil => simp [Memory.write, Memory.wf]
  | cons y rest ih =>
    obtain ⟨j, w⟩ := y
    obtain ⟨hj, hrest⟩ := List.pairwise_cons.mp h
    simp only [Memory.write]
    split
    · next hlt =>
      refine List.pairwise_cons.mpr ⟨fun x hx => ?_, h⟩
      rcases List.mem_cons.mp hx with rfl | hx
      · exact hlt
      · exact Nat.lt_trans hlt (hj x hx)
    · split
      · next heq => exact List.pairwise_cons.mpr ⟨fun x hx => heq ▸ hj x hx, hrest⟩
      · refine List.pairwise_cons.mpr ⟨fun x hx => ?_, ih hrest⟩
        rcases Memory.mem_write rest a v x hx with rfl | hx
        · show j < a
          omega
        · exact hj x hx

/-! ## Ranges -/

theorem Memory.writeRange_wf (b : Memory) (a : Nat) (bs : List Byte) (h : Memory.wf b) :
    Memory.wf (Memory.writeRange b a bs) := by
  induction bs generalizing b a with
  | nil => exact h
  | cons v vs ih => exact ih _ _ (Memory.write_wf b a v h)

/-- The entries of a buffer after a write of a range lie in the range or were there before. -/
theorem Memory.mem_writeRange (b : Memory) (a : Nat) (bs : List Byte) (x : Host.Cell)
    (hx : x ∈ Memory.writeRange b a bs) : (a ≤ x.1 ∧ x.1 < a + bs.length) ∨ x ∈ b := by
  induction bs generalizing b a with
  | nil => exact .inr hx
  | cons v vs ih =>
    rcases ih (Memory.write b a v) (a + 1) hx with h | h
    · left; simp only [List.length_cons]; omega
    · rcases Memory.mem_write b a v x h with rfl | h
      · left; simp
      · exact .inr h

/-- What a byte reads as after a range has been written. -/
theorem Memory.read_writeRange (free : Nat → Byte) (b : Memory) (a : Nat) (bs : List Byte) (k : Nat) :
    Memory.read free (Memory.writeRange b a bs) k =
      if a ≤ k then bs.getD (k - a) (Memory.read free b k) else Memory.read free b k := by
  induction bs generalizing b a with
  | nil => simp [Memory.writeRange]
  | cons v vs ih =>
    rw [Memory.writeRange, ih, Memory.read_write free b a v k]
    rcases Nat.lt_trichotomy k a with hk | rfl | hk
    · simp [show ¬ a + 1 ≤ k by omega, show ¬ a ≤ k by omega, show k ≠ a by omega]
    · simp
    · obtain ⟨d, hd⟩ : ∃ d, k - a = d + 1 := ⟨k - a - 1, by omega⟩
      simp [show a + 1 ≤ k by omega, show a ≤ k by omega, show k ≠ a by omega, hd, show k - (a + 1) = d by omega]

/-- Outside the range written, every byte reads as before. -/
theorem Memory.read_writeRange_outside (free : Nat → Byte) (b : Memory) (a : Nat) (bs : List Byte) (k : Nat)
    (hk : k < a ∨ a + bs.length ≤ k) :
    Memory.read free (Memory.writeRange b a bs) k = Memory.read free b k := by
  rw [Memory.read_writeRange free b a bs k]
  split
  · rw [List.getD_eq_default _ _ (by omega)]
  · rfl

@[simp] theorem Memory.readRange_length (free : Nat → Byte) (b : Memory) (a n : Nat) :
    (Memory.readRange free b a n).length = n := by
  induction n generalizing a with
  | zero => rfl
  | succ n ih => simp [Memory.readRange, ih]

@[simp] theorem Memory.readRange_getElem (free : Nat → Byte) (b : Memory) (a n i : Nat)
    (h : i < (Memory.readRange free b a n).length) :
    (Memory.readRange free b a n)[i] = Memory.read free b (a + i) := by
  induction n generalizing a i with
  | zero => simp [Memory.readRange] at h
  | succ n ih =>
    cases i with
    | zero => simp [Memory.readRange]
    | succ i =>
      simp only [Memory.readRange, List.getElem_cons_succ]
      rw [ih]
      congr 1
      omega

/-- Two ranges of equal bytes are equal lists. -/
theorem Memory.readRange_congr (free free' : Nat → Byte) (b b' : Memory) (a n : Nat)
    (h : ∀ k, a ≤ k → k < a + n → Memory.read free b k = Memory.read free' b' k) :
    Memory.readRange free b a n = Memory.readRange free' b' a n := by
  apply List.ext_getElem (by simp)
  intro i h1 h2
  simp only [Memory.readRange_length] at h1
  simp only [Memory.readRange_getElem]
  exact h _ (by omega) (by omega)

/-- Reading back what was written. -/
theorem Memory.readRange_writeRange (free : Nat → Byte) (b : Memory) (a : Nat) (bs : List Byte) :
    Memory.readRange free (Memory.writeRange b a bs) a bs.length = bs := by
  apply List.ext_getElem (by simp)
  intro i h1 h2
  rw [Memory.readRange_getElem, Memory.read_writeRange free b a bs _]
  simp [h2]

/-! ## The message and the key bytes of a state -/

@[simp] theorem State.message_length (s : State) : s.message.length = s.mlen.toNat := by simp [State.message]

@[simp] theorem State.message_getElem (s : State) (i : Nat) (h : i < s.message.length) :
    s.message[i] = s.messageByte i := by simp [State.message, State.messageByte]

@[simp] theorem State.keyBytes_getElem (s : State) (i : Nat) (h : i < 16) : s.keyBytes[i] = s.keyByte i := by
  simp [State.keyBytes]

theorem State.messageByte_writeMessage (s : State) (a : Nat) (bs : List Byte) (k : Nat) :
    (s.writeMessage a bs).messageByte k = if a ≤ k then bs.getD (k - a) (s.messageByte k) else s.messageByte k :=
  Memory.read_writeRange _ s.m a bs k

theorem State.messageByte_writeMessage_outside (s : State) (a : Nat) (bs : List Byte) (k : Nat)
    (hk : k < a ∨ a + bs.length ≤ k) : (s.writeMessage a bs).messageByte k = s.messageByte k :=
  Memory.read_writeRange_outside _ s.m a bs k hk

/-- The reset state's buffers list nothing. -/
theorem State.reset_memory_wf : Memory.wf State.reset.m ∧ Memory.wf State.reset.kin := ⟨.nil, .nil⟩

end Sys2Proof.Machine
end

