-- ==== Sys2Proof/Laws/Ops.lean ====
section
/-! SUPPORT. What the other shared operations do: the bits of `STAT`, the block commands' common shape, the host's store and
load. -/

namespace Sys2Proof.Machine

/-! ## STAT -/

theorem getLsbD_withStatBit (v : Byte) (i : Nat) (b : Bool) (k : Nat) (hi : i < 8) :
    (withStatBit v i b).getLsbD k = if k = i then b else v.getLsbD k := by
  unfold withStatBit
  by_cases hk : k = i
  · subst hk
    cases b <;> simp [hi]
  · by_cases hlt : k < i
    · cases b <;> simp [hk, hlt]
      exact fun h => BitVec.lt_of_getLsbD h
    · have : k - i ≠ 0 := by omega
      cases b <;> simp [hk, this]
      exact fun h => BitVec.lt_of_getLsbD h

@[simp] theorem ekvBit_withEkv (v : Byte) (b : Bool) : ekvBit (withEkv v b) = b :=
  (getLsbD_withStatBit v _ b _ (by decide)).trans (by simp)

@[simp] theorem dkvBit_withEkv (v : Byte) (b : Bool) : dkvBit (withEkv v b) = dkvBit v :=
  (getLsbD_withStatBit v _ b _ (by decide)).trans (by simp [dkvBit])

@[simp] theorem dkvBit_withDkv (v : Byte) (b : Bool) : dkvBit (withDkv v b) = b :=
  (getLsbD_withStatBit v _ b _ (by decide)).trans (by simp)

@[simp] theorem ekvBit_withDkv (v : Byte) (b : Bool) : ekvBit (withDkv v b) = ekvBit v :=
  (getLsbD_withStatBit v _ b _ (by decide)).trans (by simp [ekvBit])

/-- Writing a field of `STAT` leaves bits 7:2 alone. -/
theorem withEkv_reserved (v : Byte) (b : Bool) (i : Nat) (h : 2 ≤ i) : (withEkv v b).getLsbD i = v.getLsbD i := by
  simp [withEkv, getLsbD_withStatBit, show i ≠ 0 by omega]

theorem withDkv_reserved (v : Byte) (b : Bool) (i : Nat) (h : 2 ≤ i) : (withDkv v b).getLsbD i = v.getLsbD i := by
  simp [withDkv, getLsbD_withStatBit, show i ≠ 1 by omega]

@[simp] theorem State.setEkv_ekv (s : State) (b : Bool) : (s.setEkv b).ekv = b := ekvBit_withEkv _ _
@[simp] theorem State.setEkv_dkv (s : State) (b : Bool) : (s.setEkv b).dkv = s.dkv := dkvBit_withEkv _ _
@[simp] theorem State.setDkv_dkv (s : State) (b : Bool) : (s.setDkv b).dkv = b := dkvBit_withDkv _ _
@[simp] theorem State.setDkv_ekv (s : State) (b : Bool) : (s.setDkv b).ekv = s.ekv := ekvBit_withDkv _ _

/-- No error has the code of success. -/
theorem ErrorKind.code_ne_ok (e : ErrorKind) : e.code ≠ okCode := by cases e <;> decide

theorem ErrorKind.code_le (e : ErrorKind) : e.code.toNat ≤ 6 := by cases e <;> decide

/-- Different errors have different codes. -/
theorem ErrorKind.code_injective (e f : ErrorKind) (h : e.code = f.code) : e = f := by
  cases e <;> cases f <;> first | rfl | exact absurd h (by decide)

/-! ## The block commands -/

theorem State.blockCommand_valid (s : State) (t : TableSelect) (f : SubkeyTable → Block → Block)
    (h : s.tableValid t = true) : s.blockCommand t f = (s.setBlock (f (s.table t) s.block)).done := by
  simp [State.blockCommand, h]

theorem State.blockCommand_noKey (s : State) (t : TableSelect) (f : SubkeyTable → Block → Block)
    (h : s.tableValid t = false) : s.blockCommand t f = s.raise .noKey := by
  simp [State.blockCommand, h]

/-! ## The host's store -/

theorem fit_ok (n : Nat) (loc : Loc) (v : Nat) (h : v < 2 ^ n) : fit n loc v = .ok (BitVec.ofNat n v) := by
  simp [fit, h]

theorem fit_error (n : Nat) (loc : Loc) (v : Nat) (h : ¬ v < 2 ^ n) : fit n loc v = .error (.valueTooWide loc) := by
  simp [fit, h]

/-- What a host store that goes through can have done: it wrote one register, one byte of `BB`, one byte of `KIN` or `M` inside
its space, or nothing (`CMD`). The tables, `STAT`, `ERR` and the model's own fields are never among them. -/
theorem State.hostStore_cases {s t : State} {loc : Loc} {v : Nat} (h : s.hostStore loc v = .ok t) :
    (∃ w, loc = .opa ∧ t = { s with opa := w }) ∨ (∃ w, loc = .opb ∧ t = { s with opb := w }) ∨
    (∃ w, loc = .x1 ∧ t = { s with x1 := w }) ∨ (∃ w, loc = .x2 ∧ t = { s with x2 := w }) ∨
    (∃ w, loc = .x3 ∧ t = { s with x3 := w }) ∨ (∃ w, loc = .x4 ∧ t = { s with x4 := w }) ∨
    (∃ i b, ∃ hi : i < 8, loc = .bb i ∧ t = { s with bb := s.bb.set i b hi }) ∨
    (∃ i b, i < 16 ∧ loc = .kin i ∧ t = { s with kin := Memory.write s.kin i b }) ∨
    (∃ b, loc = .klen ∧ t = { s with klen := b }) ∨
    (∃ i b, i < s.cfg.mcap ∧ loc = .m i ∧ t = { s with m := Memory.write s.m i b }) ∨
    (∃ w, loc = .mlen ∧ t = { s with mlen := w }) ∨ (loc = .cmd ∧ t = s) := by
  have key : ∀ {n : Nat} {f : BitVec n → State}, (fit n loc v).map f = .ok t → ∃ w, t = f w := by
    intro n f hf
    by_cases hv : v < 2 ^ n
    · rw [fit_ok n loc v hv] at hf
      exact ⟨_, (Except.ok.inj hf).symm⟩
    · rw [fit_error n loc v hv] at hf
      cases hf
  cases loc <;> simp only [State.hostStore] at h
  case opa => obtain ⟨w, rfl⟩ := key h; exact .inl ⟨w, rfl, rfl⟩
  case opb => obtain ⟨w, rfl⟩ := key h; exact .inr (.inl ⟨w, rfl, rfl⟩)
  case x1 => obtain ⟨w, rfl⟩ := key h; exact .inr (.inr (.inl ⟨w, rfl, rfl⟩))
  case x2 => obtain ⟨w, rfl⟩ := key h; exact .inr (.inr (.inr (.inl ⟨w, rfl, rfl⟩)))
  case x3 => obtain ⟨w, rfl⟩ := key h; exact .inr (.inr (.inr (.inr (.inl ⟨w, rfl, rfl⟩))))
  case x4 => obtain ⟨w, rfl⟩ := key h; exact .inr (.inr (.inr (.inr (.inr (.inl ⟨w, rfl, rfl⟩)))))
  case bb i =>
    split at h
    · next hi =>
      obtain ⟨w, rfl⟩ := key h
      exact .inr (.inr (.inr (.inr (.inr (.inr (.inl ⟨i, w, hi, rfl, rfl⟩))))))
    · cases h
  case kin i =>
    split at h
    · next hi =>
      obtain ⟨w, rfl⟩ := key h
      exact .inr (.inr (.inr (.inr (.inr (.inr (.inr (.inl ⟨i, w, hi, rfl, rfl⟩)))))))
    · cases h
  case klen => obtain ⟨w, rfl⟩ := key h; simp
  case m i =>
    split at h
    · next hi =>
      obtain ⟨w, rfl⟩ := key h
      exact .inr (.inr (.inr (.inr (.inr (.inr (.inr (.inr (.inr (.inl ⟨i, w, hi, rfl, rfl⟩)))))))))
    · cases h
  case mlen => obtain ⟨w, rfl⟩ := key h; simp
  case cmd => cases h; simp
  case ek i => split at h <;> cases h
  case dk i => split at h <;> cases h
  all_goals cases h

end Sys2Proof.Machine
end

