-- ==== Sys2Proof/Laws/Exec.lean ====
section
/-! SUPPORT. One lemma per meaning that has several endings: which they are, and when each is taken. -/

namespace Sys2Proof.Machine

theorem padCount_pos (len : Nat) : 1 ≤ padCount len ∧ padCount len ≤ 8 := by unfold padCount; omega

/-- The padded length is a positive multiple of 8 (41_codec.md R148). -/
theorem add_padCount (len : Nat) : len + padCount len = 8 * (len / 8 + 1) := by unfold padCount; omega

@[simp] theorem padding_length (n : Nat) : (padding n).length = n := by simp [padding]

theorem execPad_cases (s : State) :
    (s.cfg.mcap < s.mlen.toNat + padCount s.mlen.toNat ∧ execPad s = .next (s.raise .capacity)) ∨
    (s.mlen.toNat + padCount s.mlen.toNat ≤ s.cfg.mcap ∧
      execPad s = .next ((s.writeMessage s.mlen.toNat (padding (padCount s.mlen.toNat))).setMlen
        (s.mlen.toNat + padCount s.mlen.toNat)).done) := by
  simp only [execPad]
  split
  · exact .inl ⟨by omega, rfl⟩
  · split
    · exact .inl ⟨by omega, rfl⟩
    · exact .inr ⟨by omega, rfl⟩

theorem execUnpad_cases (s : State) :
    (s.cfg.mcap < s.mlen.toNat ∧ execUnpad s = .next (s.raise .capacity)) ∨
    (s.mlen.toNat ≤ s.cfg.mcap ∧ paddingCount s.message = none ∧ execUnpad s = .next (s.raise .invalidPadding)) ∨
    (s.mlen.toNat ≤ s.cfg.mcap ∧ ∃ n, paddingCount s.message = some n ∧
      execUnpad s = .next (s.setMlen (s.mlen.toNat - n)).done) := by
  simp only [execUnpad]
  split
  · exact .inl ⟨by omega, rfl⟩
  · right
    split
    · next h => exact .inl ⟨by omega, h, rfl⟩
    · next n h => exact .inr ⟨by omega, n, h, rfl⟩

theorem execKexpe_cases (s : State) :
    (s.klen ≠ 16 ∧ execKexpe s = .next (s.raise .invalidKeyLength)) ∨
    (s.klen = 16 ∧ execKexpe s = .next (((s.setEK s.derivedEK).setEkv true).setDkv false).done) := by
  unfold execKexpe
  split
  · next h => exact .inl ⟨h, rfl⟩
  · next h => exact .inr ⟨not_not.mp h, rfl⟩

theorem execKexpd_cases (s : State) :
    (s.ekv = false ∧ execKexpd s = .next (s.raise .noKey)) ∨
    (s.ekv = true ∧ execKexpd s = .next ((s.setDK (deriveDecryptionKeys s.ek)).setDkv true).done) := by
  unfold execKexpd
  split
  · next h => exact .inl ⟨h, rfl⟩
  · next h => exact .inr ⟨by simpa using h, rfl⟩

theorem execNew_cases (s : State) :
    (s.klen ≠ 16 ∧ execNew s = .next (s.raise .invalidKeyLength)) ∨
    (s.klen = 16 ∧ execNew s =
      .next ((((s.setEK s.derivedEK).setDK (deriveDecryptionKeys s.derivedEK)).setEkv true).setDkv true).done) := by
  unfold execNew
  split
  · next h => exact .inl ⟨h, rfl⟩
  · next h => exact .inr ⟨not_not.mp h, rfl⟩

theorem State.blockCommand_cases (s : State) (t : TableSelect) (f : SubkeyTable → Block → Block) :
    (s.tableValid t = false ∧ s.blockCommand t f = s.raise .noKey) ∨
    (s.tableValid t = true ∧ s.blockCommand t f = (s.setBlock (f (s.table t) s.block)).done) := by
  cases h : s.tableValid t
  · exact .inl ⟨rfl, s.blockCommand_noKey t f h⟩
  · exact .inr ⟨rfl, s.blockCommand_valid t f h⟩

theorem execEnc_cases (s : State) :
    (s.ekv = false ∧ execEnc s = .next (s.raise .noKey)) ∨
    (s.ekv = true ∧ (s.cfg.mcap < s.mlen.toNat ∨
        (s.mlen.toNat ≠ 0 ∧ s.cfg.mcap < s.mlen.toNat + padCount s.mlen.toNat)) ∧
      execEnc s = .next (s.raise .capacity)) ∨
    (s.ekv = true ∧ s.mlen.toNat = 0 ∧ execEnc s = .next s.done) ∨
    (s.ekv = true ∧ s.mlen.toNat ≠ 0 ∧ s.mlen.toNat + padCount s.mlen.toNat ≤ s.cfg.mcap ∧
      execEnc s = .next ((s.writeMessage 0 (encryptBytes s.ek s.message)).setMlen
        (s.mlen.toNat + padCount s.mlen.toNat)).done) := by
  simp only [execEnc]
  split
  · next h => exact .inl ⟨h, rfl⟩
  · next h =>
    right
    have hk : s.ekv = true := by simpa using h
    split
    · next h => exact .inl ⟨hk, .inl h, rfl⟩
    · split
      · next h => exact .inr (.inl ⟨hk, h, rfl⟩)
      · next h =>
        split
        · next hc => exact .inl ⟨hk, .inr ⟨h, hc⟩, rfl⟩
        · next hc => exact .inr (.inr ⟨hk, h, by omega, rfl⟩)

theorem execDec_cases (s : State) :
    (s.dkv = false ∧ execDec s = .next (s.raise .noKey)) ∨
    (s.dkv = true ∧ s.cfg.mcap < s.mlen.toNat ∧ execDec s = .next (s.raise .capacity)) ∨
    (s.dkv = true ∧ s.mlen.toNat ≤ s.cfg.mcap ∧ (s.mlen.toNat = 0 ∨ s.mlen.toNat % 8 ≠ 0) ∧
      execDec s = .next (s.raise .invalidBlockLength)) ∨
    (s.dkv = true ∧ s.mlen.toNat ≤ s.cfg.mcap ∧ s.mlen.toNat ≠ 0 ∧ s.mlen.toNat % 8 = 0 ∧
      paddingCount (transformBlocks s.dk s.message) = none ∧ execDec s = .next (s.raise .invalidPadding)) ∨
    (s.dkv = true ∧ s.mlen.toNat ≤ s.cfg.mcap ∧ s.mlen.toNat ≠ 0 ∧ s.mlen.toNat % 8 = 0 ∧
      ∃ n, paddingCount (transformBlocks s.dk s.message) = some n ∧
        execDec s = .next ((s.writeMessage 0 (transformBlocks s.dk s.message)).setMlen (s.mlen.toNat - n)).done) := by
  simp only [execDec]
  split
  · next h => exact .inl ⟨h, rfl⟩
  · next h =>
    right
    have hk : s.dkv = true := by simpa using h
    split
    · next h => exact .inl ⟨hk, h, rfl⟩
    · next hc =>
      right
      split
      · next h => exact .inl ⟨hk, by omega, h, rfl⟩
      · next h =>
        right
        obtain ⟨h0, h8⟩ := not_or.mp h
        split
        · next hp => exact .inl ⟨hk, by omega, h0, not_not.mp h8, hp, rfl⟩
        · next n hp => exact .inr ⟨hk, by omega, h0, not_not.mp h8, n, hp, rfl⟩

end Sys2Proof.Machine
end

