-- ==== Sys2Proof/Laws/PerInstr.lean ====
section
/-! SUPPORT. Per-instruction families: what holds of every command as syntax, one lemma per constructor. -/

namespace Sys2Proof.Laws

/-- `match` of a command's row of spec/opcode_table.json. -/
def tableMatch : Instr → Word
  | .mulmod => 0x1000
  | .mulinv => 0x1100
  | .b2w => 0x2000
  | .w2b => 0x2100
  | .pad => 0x2200
  | .unpad => 0x2300
  | .kexpe => 0x3000
  | .kexpd => 0x3100
  | .new => 0x3200
  | .roundE _ => 0x4000
  | .roundD _ => 0x4008
  | .outxfE => 0x4100
  | .outxfD => 0x4108
  | .xformE => 0x4200
  | .xformD => 0x4208
  | .enc => 0x5000
  | .dec => 0x5100

/-- `mask` of a command's row of spec/opcode_table.json. -/
def tableMask : Instr → Word
  | .roundE _ | .roundD _ => 0xFFF8
  | .mulmod | .mulinv | .b2w | .w2b | .pad | .unpad | .kexpe | .kexpd | .new | .outxfE | .outxfD | .xformE | .xformD
  | .enc | .dec => 0xFFFF

/-- The word of a command selects its own row of the opcode table, and the command is well-formed. -/
def TableRow.Statement (i : Instr) : Prop := encode i &&& tableMask i = tableMatch i ∧ i.wellFormed = true

namespace TableRow

theorem mulmod : Statement .mulmod := by unfold Statement; decide
theorem mulinv : Statement .mulinv := by unfold Statement; decide
theorem b2w : Statement .b2w := by unfold Statement; decide
theorem w2b : Statement .w2b := by unfold Statement; decide
theorem pad : Statement .pad := by unfold Statement; decide
theorem unpad : Statement .unpad := by unfold Statement; decide
theorem kexpe : Statement .kexpe := by unfold Statement; decide
theorem kexpd : Statement .kexpd := by unfold Statement; decide
theorem new : Statement .new := by unfold Statement; decide
theorem roundE (r : Fin 8) : Statement (.roundE r) := by unfold Statement; revert r; decide
theorem roundD (r : Fin 8) : Statement (.roundD r) := by unfold Statement; revert r; decide
theorem outxfE : Statement .outxfE := by unfold Statement; decide
theorem outxfD : Statement .outxfD := by unfold Statement; decide
theorem xformE : Statement .xformE := by unfold Statement; decide
theorem xformD : Statement .xformD := by unfold Statement; decide
theorem enc : Statement .enc := by unfold Statement; decide
theorem dec : Statement .dec := by unfold Statement; decide

end TableRow

end Sys2Proof.Laws
end

