-- ==== Sys2Proof/Laws/Regmap.lean ====
section
/-! SUPPORT. The bus map: that its legal range is the injective maps, one lemma per field of a state on another platform, and what
an outcome changed by a function is. -/

namespace Sys2Proof

theorem RegName.index_injective {r r' : RegName} (h : r.index = r'.index) : r = r' := by
  cases r <;> cases r' <;> first | rfl | exact absurd h (by decide)

theorem RegName.index_surjective (i : Fin 17) : ∃ r : RegName, r.index = i := by
  fin_cases i
  exacts [⟨.opa, rfl⟩, ⟨.opb, rfl⟩, ⟨.res, rfl⟩, ⟨.x1, rfl⟩, ⟨.x2, rfl⟩, ⟨.x3, rfl⟩, ⟨.x4, rfl⟩, ⟨.bb, rfl⟩, ⟨.ek, rfl⟩,
    ⟨.dk, rfl⟩, ⟨.kin, rfl⟩, ⟨.klen, rfl⟩, ⟨.m, rfl⟩, ⟨.mlen, rfl⟩, ⟨.stat, rfl⟩, ⟨.err, rfl⟩, ⟨.cmd, rfl⟩]

/-- The legal maps are "any injective map from register names to bus addresses" (00_scope.md R6). -/
theorem RegMap.injective_iff (f : RegMap) : f.injective ↔ Function.Injective f.address := by
  constructor
  · exact fun h r r' hr => RegName.index_injective (h r.index r'.index hr)
  · intro h i j hij
    obtain ⟨r, rfl⟩ := RegName.index_surjective i
    obtain ⟨r', rfl⟩ := RegName.index_surjective j
    exact congrArg RegName.index (h hij)

namespace Machine

@[simp] theorem State.withRegmap_opa (s : State) (f : RegMap) : (s.withRegmap f).opa = s.opa := rfl
@[simp] theorem State.withRegmap_opb (s : State) (f : RegMap) : (s.withRegmap f).opb = s.opb := rfl
@[simp] theorem State.withRegmap_res (s : State) (f : RegMap) : (s.withRegmap f).res = s.res := rfl
@[simp] theorem State.withRegmap_x1 (s : State) (f : RegMap) : (s.withRegmap f).x1 = s.x1 := rfl
@[simp] theorem State.withRegmap_x2 (s : State) (f : RegMap) : (s.withRegmap f).x2 = s.x2 := rfl
@[simp] theorem State.withRegmap_x3 (s : State) (f : RegMap) : (s.withRegmap f).x3 = s.x3 := rfl
@[simp] theorem State.withRegmap_x4 (s : State) (f : RegMap) : (s.withRegmap f).x4 = s.x4 := rfl
@[simp] theorem State.withRegmap_bb (s : State) (f : RegMap) : (s.withRegmap f).bb = s.bb := rfl
@[simp] theorem State.withRegmap_ek (s : State) (f : RegMap) : (s.withRegmap f).ek = s.ek := rfl
@[simp] theorem State.withRegmap_dk (s : State) (f : RegMap) : (s.withRegmap f).dk = s.dk := rfl
@[simp] theorem State.withRegmap_kin (s : State) (f : RegMap) : (s.withRegmap f).kin = s.kin := rfl
@[simp] theorem State.withRegmap_klen (s : State) (f : RegMap) : (s.withRegmap f).klen = s.klen := rfl
@[simp] theorem State.withRegmap_m (s : State) (f : RegMap) : (s.withRegmap f).m = s.m := rfl
@[simp] theorem State.withRegmap_mlen (s : State) (f : RegMap) : (s.withRegmap f).mlen = s.mlen := rfl
@[simp] theorem State.withRegmap_stat (s : State) (f : RegMap) : (s.withRegmap f).stat = s.stat := rfl
@[simp] theorem State.withRegmap_err (s : State) (f : RegMap) : (s.withRegmap f).err = s.err := rfl
@[simp] theorem State.withRegmap_resets (s : State) (f : RegMap) : (s.withRegmap f).resets = s.resets := rfl
@[simp] theorem State.withRegmap_actions (s : State) (f : RegMap) : (s.withRegmap f).actions = s.actions := rfl
@[simp] theorem State.withRegmap_replies (s : State) (f : RegMap) : (s.withRegmap f).replies = s.replies := rfl
@[simp] theorem State.withRegmap_mcap (s : State) (f : RegMap) : (s.withRegmap f).cfg.mcap = s.cfg.mcap := rfl
@[simp] theorem State.withRegmap_ksMode (s : State) (f : RegMap) : (s.withRegmap f).cfg.ksMode = s.cfg.ksMode := rfl
@[simp] theorem State.withRegmap_regmap (s : State) (f : RegMap) : (s.withRegmap f).cfg.regmap = f := rfl

@[simp] theorem mapNext_next (f : State → State) (t : State) : mapNext f (.next t) = .next (f t) := rfl
@[simp] theorem mapNext_fault (f : State → State) (e : Fault) : mapNext f (.fault e) = .fault e := rfl
@[simp] theorem mapNext_refused (f : State → State) (r : Refusal) : mapNext f (.refused r) = .refused r := rfl

end Machine

end Sys2Proof
end

