-- ==== Sys2Proof/Laws/Step.lean ====
section
/-! SUPPORT. What a step can be: idle, or one of the four events. -/

namespace Sys2Proof.Machine

/-- A command word either is reserved, and only `ERR` is set, or runs its command. -/
theorem issueCommand_cases {c : Word} {s t : State} (h : issueCommand c s = .next t) :
    (∃ i, decode c = .ok i ∧ exec i s = .next t) ∨ (∃ e, decode c = .error e ∧ t = s.raise .illegalCommand) := by
  unfold issueCommand at h
  split at h
  · next i hd => exact .inl ⟨i, hd, h⟩
  · next e hd => exact .inr ⟨e, hd, by cases h; rfl⟩

theorem hostWrite_cases {loc : Loc} {v : Nat} {s t : State} (h : hostWrite loc v s = .next t) :
    (∃ c, loc = .cmd ∧ issueCommand c s = .next t) ∨ (loc ≠ .cmd ∧ s.hostStore loc v = .ok t) := by
  unfold hostWrite at h
  split at h
  · next hc =>
    split at h
    · next c _ => exact .inl ⟨c, hc, h⟩
    · cases h
  · next hc =>
    split at h
    · next u hu => exact .inr ⟨hc, by cases h; exact hu⟩
    · cases h

theorem hostRead_cases {loc : Loc} {s t : State} (h : hostRead loc s = .next t) :
    ∃ v, s.hostLoad loc = .ok v ∧ t = { s with replies := { loc := loc, value := v } :: s.replies } := by
  unfold hostRead at h
  split at h
  · next v hv => exact ⟨v, hv, by cases h; rfl⟩
  · cases h

/-- Every step that goes on is one of: idle, a host store, a host read, a reset, a reserved word, or a command; in all but the
first the action has been taken off the list. -/
theorem step_cases {s t : State} (h : step s = .next t) :
    (s.actions = [] ∧ t = s) ∨
    ∃ a rest, s.actions = a :: rest ∧
      ((∃ loc v, a = .write loc v ∧ loc ≠ .cmd ∧ { s with actions := rest }.hostStore loc v = .ok t) ∨
       (∃ loc v, a = .read loc ∧ { s with actions := rest }.hostLoad loc = .ok v ∧
          t = { s with actions := rest, replies := { loc := loc, value := v } :: s.replies }) ∨
       (a = .reset ∧ t = { s with actions := rest }.resetEvent) ∨
       t = { s with actions := rest }.raise .illegalCommand ∨
       (∃ i, exec i { s with actions := rest } = .next t)) := by
  unfold step nextEvent at h
  split at h
  · next ha => exact .inl ⟨ha, by cases h; rfl⟩
  · next a rest ha =>
    refine .inr ⟨a, rest, ha, ?_⟩
    have issued : ∀ c, issueCommand c { s with actions := rest } = .next t →
        t = { s with actions := rest }.raise .illegalCommand ∨ ∃ i, exec i { s with actions := rest } = .next t := by
      intro c hc
      rcases issueCommand_cases hc with ⟨i, _, hi⟩ | ⟨_, _, ht⟩
      · exact .inr ⟨i, hi⟩
      · exact .inl ht
    cases a with
    | write loc v =>
      rcases hostWrite_cases h with ⟨c, _, hc⟩ | ⟨hn, hs⟩
      · exact .inr (.inr (.inr (issued c hc)))
      · exact .inl ⟨loc, v, rfl, hn, hs⟩
    | issue c => exact .inr (.inr (.inr (issued c h)))
    | read loc =>
      obtain ⟨v, hv, ht⟩ := hostRead_cases h
      exact .inr (.inl ⟨loc, v, rfl, hv, ht⟩)
    | reset => exact .inr (.inr (.inl ⟨rfl, by cases h; rfl⟩))

end Sys2Proof.Machine
end

