-- ==== Sys2Proof/Tests/Slice0.lean ====
section
/-! SUPPORT. Small checks of the model against the values written out in spec/, and for every statement with hypotheses a concrete
input that meets them. Expected values are the spec's: 30_encoding.md, 95_test_vectors.md and the examples of the rules named. -/

namespace Sys2Proof.Tests

open Sys2Proof Sys2Proof.Machine

-- One theorem at a time: many kernel evaluations at once ask for more threads than the check's memory allows.
set_option Elab.async false

/-! ## Small states -/

/-- Key `K1` of 95_test_vectors.md. -/
def key1 : Vector Byte 16 := #v[0, 1, 0, 2, 0, 3, 0, 4, 0, 5, 0, 6, 0, 7, 0, 8]

def ek1 : SubkeyTable := deriveEncryptionKeys .doc key1

def dk1 : SubkeyTable := deriveDecryptionKeys ek1

/-- Reset, with the key offered. -/
def offered (klen : Byte) : State := { State.reset with kin := Memory.writeRange [] 0 key1.toList, klen := klen }

/-- Reset, with both tables of `K1` valid and a buffer of 24 bytes. -/
def keyed : State := { State.reset with ek := ek1, dk := dk1, stat := 3, cfg := { Config.specDefault with mcap := 24 } }

/-- Only the encryption table valid. -/
def keyedE : State := { keyed with stat := 1 }

/-- The given bytes from offset 0, and a message length. -/
def holding (s : State) (bs : List Byte) (len : Nat) : State :=
  { s with m := Memory.writeRange [] 0 bs, mlen := BitVec.ofNat 32 len }

/-- A state whose block registers hold the given words. -/
def withBlock (s : State) (x1 x2 x3 x4 : Word) : State := { s with x1 := x1, x2 := x2, x3 := x3, x4 := x4 }

def after (i : Instr) (s : State) : Option State := nextState (exec i s)

def errAfter (i : Instr) (s : State) : Option Byte := (after i s).map fun t => t.err

def blockAfter (i : Instr) (s : State) : Option Block := (after i s).map fun t => t.block

def messageAfter (i : Instr) (s : State) : Option (List Byte) := (after i s).map fun t => t.message

/-! ## Decoding: words written out bit by bit from 30_encoding.md R90 to R92 -/

theorem test_decode_arithmetic :
    decode 0b0001000000000000 = .ok .mulmod ∧ decode 0b0001000100000000 = .ok .mulinv := by decide

theorem test_decode_codec :
    decode 0b0010000000000000 = .ok .b2w ∧ decode 0b0010000100000000 = .ok .w2b ∧
    decode 0b0010001000000000 = .ok .pad ∧ decode 0b0010001100000000 = .ok .unpad := by decide

theorem test_decode_key_scheduler :
    decode 0b0011000000000000 = .ok .kexpe ∧ decode 0b0011000100000000 = .ok .kexpd ∧
    decode 0b0011001000000000 = .ok .new := by decide

theorem test_decode_block_transform :
    decode 0b0100000000000101 = .ok (.roundE 5) ∧ decode 0b0100000000001010 = .ok (.roundD 2) ∧
    decode 0b0100000100000000 = .ok .outxfE ∧ decode 0b0100000100001000 = .ok .outxfD ∧
    decode 0b0100001000000000 = .ok .xformE ∧ decode 0b0100001000001000 = .ok .xformD := by decide

theorem test_decode_cipher_facade :
    decode 0b0101000000000000 = .ok .enc ∧ decode 0b0101000100000000 = .ok .dec := by decide

/-- Reserved words of V6.1, one for each reason. -/
theorem test_decode_reserved :
    decode 0x4010 = .error .zNotZero ∧ decode 0x1001 = .error .fieldInC0 ∧ decode 0x5008 = .error .fieldInC0 ∧
    decode 0x4109 = .error .roundInCT ∧ decode 0x1200 = .error .noSuchOpcode ∧ decode 0xFFFF = .error .zNotZero ∧
    decode 0x0000 = .error .noSuchOpcode := by decide

theorem test_encode_words :
    encode (.roundE 7) = 0x4007 ∧ encode (.roundD 0) = 0x4008 ∧ encode .outxfD = 0x4108 ∧ encode .dec = 0x5100 := by decide

theorem test_table_word :
    decodeTableWord 16 0x400F = some (.roundD 7) ∧ decodeTableWord 16 0x1080 = none ∧ decodeTableWord 24 0x1000 = none := by
  decide

/-! ## Well-formedness: an ill-formed host action for each check. No command is ill-formed: its one range is in its type. -/

theorem test_wellFormed_commands : ∀ r : Fin 8, (Instr.roundE r).wellFormed = true ∧ (Instr.roundD r).wellFormed = true := by
  decide

/-- Outside the shape of 10_state.md R20. -/
theorem test_illFormed_shape :
    (HostAction.write (.m 24) 0).wellFormed keyed.cfg = false ∧ (HostAction.read (.kin 16)).wellFormed keyed.cfg = false ∧
    (HostAction.write (.bb 8) 0).wellFormed keyed.cfg = false ∧ (HostAction.read (.ek 52)).wellFormed keyed.cfg = false := by
  decide

/-- A write without the right (10_state.md R38). -/
theorem test_illFormed_write :
    (HostAction.write .res 0).wellFormed keyed.cfg = false ∧ (HostAction.write (.dk 0) 0).wellFormed keyed.cfg = false ∧
    (HostAction.write .stat 0).wellFormed keyed.cfg = false ∧ (HostAction.write .err 0).wellFormed keyed.cfg = false := by
  decide

/-- A read of `CMD` (10_state.md R38). -/
theorem test_illFormed_read : (HostAction.read .cmd).wellFormed keyed.cfg = false := by decide

/-- A value wider than its place (log 7). -/
theorem test_illFormed_value :
    (HostAction.write .opa 0x10000).wellFormed keyed.cfg = false ∧ (HostAction.write .klen 256).wellFormed keyed.cfg = false ∧
    (HostAction.write .cmd 0x10000).wellFormed keyed.cfg = false := by decide

/-- Parameters outside their range (00_scope.md R6): `MCAP` no multiple of 8, 0 and too large, and a map that gives two names one
address. -/
theorem test_illFormed_config :
    Config.specDefault.wf ∧ ¬ { Config.specDefault with mcap := 12 }.wf ∧ ¬ { Config.specDefault with mcap := 0 }.wf ∧
    ¬ { Config.specDefault with mcap := 2 ^ 32 }.wf ∧
    ¬ { Config.specDefault with regmap := Vector.replicate 17 0 }.wf := by decide +kernel

/-! ## Modular arithmetic -/

/-- 40_modular_arithmetic.md R129, the example. -/
theorem test_mulmod : (after .mulmod { State.reset with opa := 0x1234, opb := 0x5678 }).map (fun t => t.res) = some 0xFA3B := by
  decide +kernel

/-- 40_modular_arithmetic.md R125: `mulMod(0, 0) = 1`. -/
theorem test_mulmod_zero : (after .mulmod State.reset).map (fun t => t.res) = some 1 := by decide +kernel

/-- 40_modular_arithmetic.md R132, the example. -/
theorem test_mulinv : (after .mulinv { State.reset with opa := 3 }).map (fun t => t.res) = some 0x5556 := by decide +kernel

/-- 95_test_vectors.md P4, line 24. -/
theorem test_mulinv_1234 : (after .mulinv { State.reset with opa := 0x1234 }).map (fun t => t.res) = some 0x9E9A := by
  decide +kernel

/-! ## Codec -/

/-- 41_codec.md R144, the second example. -/
theorem test_b2w :
    blockAfter .b2w { State.reset with bb := #v[0x12, 0x34, 0xAB, 0xCD, 0x00, 0xFF, 0xFF, 0x00] } =
      some { x1 := 0x1234, x2 := 0xABCD, x3 := 0x00FF, x4 := 0xFF00 } := by decide +kernel

/-- 41_codec.md R145, the example. -/
theorem test_w2b :
    (after .w2b (withBlock State.reset 0x11FB 0xED2B 0x0198 0x6DE5)).map (fun t => t.bb) =
      some #v[0x11, 0xFB, 0xED, 0x2B, 0x01, 0x98, 0x6D, 0xE5] := by decide +kernel

/-- 41_codec.md R149, the example. -/
theorem test_pad :
    messageAfter .pad (holding keyed [0x41, 0x42, 0x43] 3) = some [0x41, 0x42, 0x43, 5, 5, 5, 5, 5] := by decide +kernel

/-- 95_test_vectors.md V5.3: `MLEN = 25`, `MCAP = 24`. -/
theorem test_pad_capacity : errAfter .pad (holding keyed [] 25) = some 5 := by decide +kernel

/-- 41_codec.md R153, the first example. -/
theorem test_unpad : messageAfter .unpad (holding keyed [0x41, 0x42, 0x43, 5, 5, 5, 5, 5] 8) = some [0x41, 0x42, 0x43] := by
  decide +kernel

/-- 41_codec.md R153, the second example. -/
theorem test_unpad_fails : errAfter .unpad (holding keyed [0x41, 0x41, 0x41, 0x41, 0x41, 0x41, 3, 3] 8) = some 3 := by
  decide +kernel

/-! ## Key scheduler -/

/-- 42_key_scheduler.md R179, the example. -/
theorem test_kexpe :
    (after .kexpe (offered 16)).map (fun t => (t.ek[7], t.ek[8], t.ek[15], t.stat)) = some (8, 0x0200, 0x1004, 1) := by
  decide +kernel

/-- 42_key_scheduler.md R180, the example. -/
theorem test_kexpd :
    (after .kexpd keyedE).map (fun t => (t.dk[0], t.dk[1], t.dk[48], t.dk[49], t.dk[51], t.stat)) =
      some (0xFF01, 0xFEC0, 1, 0xFFFE, 0xC001, 3) := by decide +kernel

/-- 95_test_vectors.md P1, lines 5 to 7. -/
theorem test_new : (after .new (offered 16)).map (fun t => (t.stat, t.ek[8], t.dk[0])) = some (3, 0x0200, 0xFF01) := by
  decide +kernel

/-- 95_test_vectors.md P1: the same lines under `KS_MODE = PUBLISHED`. -/
theorem test_new_published :
    (after .new { offered 16 with cfg := { Config.specDefault with ksMode := .published } }).map (fun t => (t.ek[8], t.dk[0])) =
      some (0x0400, 0xFE01) := by decide +kernel

/-! ## Block transform: 95_test_vectors.md P4, V4.6 and P1 -/

theorem test_roundE :
    blockAfter (.roundE 0) (withBlock keyed 0 1 2 3) = some { x1 := 0x00F0, x2 := 0x00F5, x3 := 0x010A, x4 := 0x0105 } := by
  decide +kernel

theorem test_roundE_7 :
    blockAfter (.roundE 7) (withBlock keyed 0x7BDD 0x3BAE 0x7F1D 0x6962) =
      some { x1 := 0xD3A5, x2 := 0x5E2C, x3 := 0x3EC2, x4 := 0x9D0A } := by decide +kernel

theorem test_roundD :
    blockAfter (.roundD 0) (withBlock keyed 0xA42D 0x4002 0x5FAC 0xD06E) =
      some { x1 := 0xD297, x2 := 0x5F1E, x3 := 0xFBAE, x4 := 0x5866 } := by decide +kernel

theorem test_roundD_7 :
    blockAfter (.roundD 7) (withBlock keyed 0x0690 0x030A 0x00FD 0x13FC) =
      some { x1 := 0x0000, x2 := 0x0005, x3 := 0x0003, x4 := 0x000C } := by decide +kernel

theorem test_outxfE :
    blockAfter .outxfE (withBlock keyed 0xD3A5 0x5E2C 0x3EC2 0x9D0A) =
      some { x1 := 0xA42D, x2 := 0x4002, x3 := 0x5FAC, x4 := 0xD06E } := by decide +kernel

theorem test_outxfD :
    blockAfter .outxfD (withBlock keyed 0x0000 0x0005 0x0003 0x000C) = some { x1 := 0, x2 := 1, x3 := 2, x4 := 3 } := by
  decide +kernel

theorem test_xformE :
    blockAfter .xformE (withBlock keyed 0 1 2 3) = some { x1 := 0xA42D, x2 := 0x4002, x3 := 0x5FAC, x4 := 0xD06E } := by
  decide +kernel

/-- 42_key_scheduler.md R172: the published vector, under `KS_MODE = PUBLISHED`. -/
theorem test_xformE_published :
    blockAfter .xformE (withBlock { keyed with ek := deriveEncryptionKeys .published key1 } 0 1 2 3) =
      some { x1 := 0x11FB, x2 := 0xED2B, x3 := 0x0198, x4 := 0x6DE5 } := by decide +kernel

theorem test_xformD :
    blockAfter .xformD (withBlock keyed 0xA42D 0x4002 0x5FAC 0xD06E) = some { x1 := 0, x2 := 1, x3 := 2, x4 := 3 } := by
  decide +kernel

/-- 95_test_vectors.md V4.8: without the table, `NoKey`. -/
theorem test_xformD_noKey : errAfter .xformD (withBlock keyedE 0 1 2 3) = some 4 := by decide +kernel

/-! ## Whole messages: 95_test_vectors.md V5.1 and V5.2 -/

theorem test_enc :
    messageAfter .enc (holding keyed [0x41] 1) = some [0x1B, 0x14, 0xD1, 0xBC, 0x44, 0xED, 0x3C, 0x4E] := by decide +kernel

theorem test_enc_two_blocks :
    messageAfter .enc (holding keyed [0x41, 0x42, 0x43, 0x44, 0x45, 0x46, 0x47, 0x48] 8) =
      some [0xC9, 0xAD, 0xCB, 0xFE, 0x7E, 0x69, 0x7F, 0x5B, 0x02, 0x65, 0xDA, 0xF8, 0x50, 0x21, 0xE9, 0x71] := by decide +kernel

/-- V5.2 row 1: the decrypted padding bytes stay in `M`. -/
theorem test_dec :
    (after .dec (holding keyed [0x1B, 0x14, 0xD1, 0xBC, 0x44, 0xED, 0x3C, 0x4E] 8)).map
      (fun t => (t.err, t.mlen, t.messageByte 0, t.messageByte 7)) = some (0, 1, 0x41, 7) := by decide +kernel

/-- V5.2 row 7: bad padding leaves the ciphertext. -/
theorem test_dec_padding :
    (after .dec (holding keyed [0xCF, 0xFF, 0xB3, 0xF4, 0xCE, 0x27, 0xEA, 0xFE] 8)).map
      (fun t => (t.err, t.mlen, t.messageByte 0, t.messageByte 7)) = some (3, 8, 0xCF, 0xFE) := by decide +kernel

/-! ## Witnesses: for each statement with hypotheses, an input that meets all of them together, clause by clause -/

/-- A command that ends in a state with a property that can be checked. -/
theorem exists_next {i : Instr} {s : State} {p : State → Bool} (h : (after i s).any p = true) :
    ∃ t, exec i s = .next t ∧ p t = true := by
  unfold after at h
  cases he : exec i s with
  | next t => exact ⟨t, rfl, by simpa [he, nextState] using h⟩
  | fault f => simp [he, nextState] at h
  | refused r => simp [he, nextState] at h

/-- The message of V5.2 row 1, whose decryption ends in seven bytes 07. -/
def cipherA : List Byte := [0x1B, 0x14, 0xD1, 0xBC, 0x44, 0xED, 0x3C, 0x4E]

/-- The message of V5.2 row 7, whose decryption ends in 00. -/
def cipherBad : List Byte := [0xCF, 0xFF, 0xB3, 0xF4, 0xCE, 0x27, 0xEA, 0xFE]

/-- A host about to act. -/
def about (a : HostAction) : State := { keyed with actions := [a] }

theorem witness_StepRunsTheDecodedCommand :
    ((about (.issue 0x400F)).actions = .issue 0x400F :: [] ∧ decode 0x400F = .ok (.roundD 7)) ∧
    decodeTableWord 16 0x5100 = some .dec ∧
    ((about (.issue 0x4010)).actions = .issue 0x4010 :: [] ∧ decode 0x4010 = .error .zNotZero) ∧
    State.reset.actions = [] := by decide

/-- The last place of each shape and the largest value of each width. -/
theorem witness_HostWriteStoresOnlyItsPlace :
    ((about (.write (.m 23) 255)).actions = .write (.m 23) 255 :: [] ∧ Loc.m 23 ≠ .cmd ∧
      (HostAction.write (.m 23) 255).wellFormed keyed.cfg = true) ∧
    (HostAction.write (.kin 15) 255).wellFormed keyed.cfg = true ∧
    (HostAction.write (.bb 7) 255).wellFormed keyed.cfg = true ∧
    (HostAction.write .klen 255).wellFormed keyed.cfg = true ∧
    (HostAction.write .opa 0xFFFF).wellFormed keyed.cfg = true ∧
    (HostAction.write .mlen 0xFFFFFFFF).wellFormed keyed.cfg = true := by decide +kernel

theorem witness_HostReadChangesNothing :
    ((about (.read (.ek 51))).actions = .read (.ek 51) :: [] ∧ (HostAction.read (.ek 51)).wellFormed keyed.cfg = true) ∧
    (HostAction.read (.m 23)).wellFormed keyed.cfg = true ∧ (HostAction.read (.kin 0)).wellFormed keyed.cfg = true ∧
    (HostAction.read .err).wellFormed keyed.cfg = true := by decide

/-- One action on each side of the equivalence. -/
theorem witness_OnlyNonActionsAreRefused :
    ((about (.write (.m 24) 0)).actions = .write (.m 24) 0 :: [] ∧ (HostAction.write (.m 24) 0).wellFormed keyed.cfg = false) ∧
    ((about .reset).actions = .reset :: [] ∧ HostAction.reset.wellFormed keyed.cfg = true) := by decide

theorem witness_ResetEventGivesResetValues :
    (about .reset).actions = .reset :: [] ∧ (∀ a, Loc.opa ≠ .m a) ∧ (∀ a, Loc.opa ≠ .kin a) :=
  ⟨rfl, nofun, nofun⟩

/-- `IllegalCommand`: a reserved word. -/
theorem witness_ReservedWordsExactly : ∃ e, decode 0x5008 = .error e := ⟨.fieldInC0, by decide⟩

/-- Both ends of the range. -/
theorem witness_EuclidCoefficientInverts : (2 ≤ 2 ∧ 2 ≤ 65535) ∧ (2 ≤ 65535 ∧ 65535 ≤ 65535) := by decide

/-- The uniqueness clause: a word that multiplies `OPA` to 1. -/
theorem witness_MulinvWritesTheInverse : mulMod 3 0x5556 = 1 := by decide +kernel

theorem witness_W2bWritesBigEndian :
    (∃ t u, exec .w2b keyed = .next t ∧ exec .b2w t = .next u) ∧ (∃ t u, exec .b2w keyed = .next t ∧ exec .w2b t = .next u) :=
  ⟨⟨_, _, rfl, rfl⟩, ⟨_, _, rfl, rfl⟩⟩

theorem witness_UnpadInvertsPad :
    unpad [0x41, 0x42, 0x43, 5, 5, 5, 5, 5] = some [0x41, 0x42, 0x43] ∧ [0x41, 0x42, 0x43, 5, 5, 5, 5, (5 : Byte)].length % 8 = 0 := by
  decide

/-- The shortest and the longest message that still fits, and the first that does not, with `MCAP = 24`. -/
theorem witness_PadAppendsThePadding :
    keyed.cfg.mcapWf ∧ (holding keyed [] 0).mlen.toNat + (8 - (holding keyed [] 0).mlen.toNat % 8) ≤ keyed.cfg.mcap ∧
    (holding keyed [] 23).mlen.toNat + (8 - (holding keyed [] 23).mlen.toNat % 8) ≤ keyed.cfg.mcap ∧
    keyed.cfg.mcap < (holding keyed [] 24).mlen.toNat + (8 - (holding keyed [] 24).mlen.toNat % 8) := by decide

/-- The smallest and the largest count, at the full capacity; a message that is not padded; a length above the capacity. -/
theorem witness_UnpadChecksAndShortens :
    (24 ≤ keyed.cfg.mcap ∧ Spec.ValidPadding (holding keyed (List.replicate 24 1) 24).messageByte 24) ∧
    Spec.ValidPadding (holding keyed (List.replicate 24 8) 24).messageByte 24 ∧
    ((holding keyed [] 0).mlen.toNat ≤ keyed.cfg.mcap ∧
      ¬ Spec.ValidPadding (holding keyed [] 0).messageByte (holding keyed [] 0).mlen.toNat) ∧
    keyed.cfg.mcap < (holding keyed [] 25).mlen.toNat := by
  refine ⟨⟨by decide, ?_⟩, ?_, ⟨by decide, fun h => h.1 (by decide)⟩, by decide⟩
  · refine ⟨by decide, by decide +kernel, by decide +kernel, by decide +kernel, ?_⟩
    have h : ∀ a : Fin 24, 23 ≤ a.val → (holding keyed (List.replicate 24 1) 24).messageByte a.val = 1 := by decide +kernel
    exact fun a ha hl => h ⟨a, hl⟩ ha
  · refine ⟨by decide, by decide +kernel, by decide +kernel, by decide +kernel, ?_⟩
    have h : ∀ a : Fin 24, 16 ≤ a.val → (holding keyed (List.replicate 24 8) 24).messageByte a.val = 8 := by decide +kernel
    exact fun a ha hl => h ⟨a, hl⟩ ha

theorem witness_UnpadSuccess : ∃ t, exec .unpad (holding keyed [0x41, 0x42, 0x43, 5, 5, 5, 5, 5] 8) = .next t ∧
    decide (t.err = 0) = true := exists_next (by decide +kernel)

/-- First and last index of each range. -/
theorem witness_EncryptionTableRecurrence : (0 < 8 ∧ 7 < 8) ∧ (8 ≤ 8 ∧ 8 < 52) ∧ (8 ≤ 51 ∧ 51 < 52) := by decide

/-- An index of each of the three patterns, `i = 8`, `14` and `15`. -/
theorem witness_PublishedTableRecurrence :
    (8 % 8 < 6 ∧ 1 = 8 - 7 ∧ 2 = 8 - 6) ∧ (14 % 8 = 6 ∧ 7 = 14 - 7 ∧ 0 = 14 - 14) ∧
    (15 % 8 = 7 ∧ 0 = 15 - 15 ∧ 1 = 15 - 14) := by decide

theorem witness_KeyStreamRepeatsBits : (8 ≤ 51 ∧ 51 < 52) ∧ (128 ≤ 128 ∧ 128 < 832) ∧ (128 ≤ 831 ∧ 831 < 832) := by decide

theorem witness_DecryptionTableByPosition : (2 ≤ 2 ∧ 2 ≤ 8) ∧ (2 ≤ 8 ∧ 8 ≤ 8) := by decide

theorem witness_KexpeDerivesTheEncryptionTable :
    (offered 16).klen = 16 ∧ (offered 15).klen ≠ 16 ∧ (offered 17).klen ≠ 16 := by decide

theorem witness_KexpdDerivesTheDecryptionTable : keyedE.ekv = true ∧ State.reset.ekv = false := by decide

theorem witness_NewDerivesBothTables : (offered 16).klen = 16 ∧ (offered 0).klen ≠ 16 ∧ (offered 255).klen ≠ 16 := by decide

/-- A command of another family, and a key-scheduler command that fails. -/
theorem witness_OnlyKeySchedulerWritesTables :
    (∃ t, exec .w2b keyed = .next t ∧ Instr.w2b ≠ .kexpe ∧ Instr.w2b ≠ .kexpd ∧ Instr.w2b ≠ .new) ∧
    (∃ t, exec .new (offered 15) = .next t ∧ decide (t.err ≠ 0) = true) ∧
    (∃ t, exec .kexpd keyedE = .next t ∧ Instr.kexpd ≠ .kexpe ∧ Instr.kexpd ≠ .new) ∧
    (∃ t, exec .kexpe (offered 16) = .next t ∧ Instr.kexpe ≠ .kexpd ∧ Instr.kexpe ≠ .new) := by
  refine ⟨⟨_, rfl, nofun, nofun, nofun⟩, exists_next (by decide +kernel), ?_, ?_⟩
  · obtain ⟨t, h, _⟩ := exists_next (i := .kexpd) (s := keyedE) (p := fun _ => true) (by decide +kernel)
    exact ⟨t, h, nofun, nofun⟩
  · obtain ⟨t, h, _⟩ := exists_next (i := .kexpe) (s := offered 16) (p := fun _ => true) (by decide +kernel)
    exact ⟨t, h, nofun, nofun⟩

/-- Either table, valid and not valid, first and last round. -/
theorem witness_RoundCommandsRunOneRound :
    (∃ (i : Instr) (t : SubkeyTable) (valid : Bool), i = .roundE 0 ∧ t = keyed.ek ∧ valid = keyed.ekv ∧ valid = true) ∧
    (∃ (i : Instr) (t : SubkeyTable) (valid : Bool), i = .roundD 7 ∧ t = keyedE.dk ∧ valid = keyedE.dkv ∧ valid = false) :=
  ⟨⟨_, _, _, rfl, rfl, rfl, by decide⟩, ⟨_, _, _, rfl, rfl, rfl, by decide⟩⟩

theorem witness_XformCommandsTransformTheBlock :
    keyed.ekv = true ∧ keyed.dkv = true ∧ State.reset.ekv = false ∧ keyedE.dkv = false := by decide

theorem witness_TransformIsInvertible :
    keyed.ekv = true ∧ keyed.dkv = true ∧ keyed.dk = deriveDecryptionKeys keyed.ek ∧
    (∃ t u, exec .xformE keyed = .next t ∧ exec .xformD t = .next u) ∧
    (∃ t u, exec .xformD keyed = .next t ∧ exec .xformE t = .next u) :=
  ⟨by decide, by decide, rfl, ⟨_, _, rfl, rfl⟩, ⟨_, _, rfl, rfl⟩⟩

/-- A message of eight bytes has two blocks. -/
theorem witness_EncryptBytesBlockByBlock :
    List.replicate 8 (0 : Byte) ≠ [] ∧ 0 < (List.replicate 8 (0 : Byte)).length / 8 + 1 ∧
    1 < (List.replicate 8 (0 : Byte)).length / 8 + 1 := by decide

/-- The shortest and the longest message that fits; the empty one; no key; the padded message too long; the message itself too
long. -/
theorem witness_EncEncryptsInPlace :
    (keyed.cfg.mcapWf ∧ keyed.ekv = true ∧ 1 ≤ (holding keyed [] 1).mlen.toNat ∧
      (holding keyed [] 1).mlen.toNat + (8 - (holding keyed [] 1).mlen.toNat % 8) ≤ keyed.cfg.mcap) ∧
    (1 ≤ (holding keyed [] 23).mlen.toNat ∧
      (holding keyed [] 23).mlen.toNat + (8 - (holding keyed [] 23).mlen.toNat % 8) ≤ keyed.cfg.mcap) ∧
    keyed.mlen = 0 ∧ State.reset.ekv = false ∧
    ((holding keyed [] 24).mlen ≠ 0 ∧
      keyed.cfg.mcap < (holding keyed [] 24).mlen.toNat + (8 - (holding keyed [] 24).mlen.toNat % 8)) ∧
    keyed.cfg.mcap < (holding keyed [] 25).mlen.toNat + (8 - (holding keyed [] 25).mlen.toNat % 8) := by decide

/-- Success; no table; above the capacity; lengths 0 and 12; a whole block with bad padding. -/
theorem witness_DecDecryptsInPlace :
    (keyed.dkv = true ∧ (holding keyed cipherA 8).mlen.toNat ≤ keyed.cfg.mcap ∧
      (decryptBytes keyed.dk (holding keyed cipherA 8).message).toOption = some [0x41]) ∧
    keyedE.dkv = false ∧ keyed.cfg.mcap < (holding keyed [] 25).mlen.toNat ∧
    (holding keyed [] 0).mlen.toNat = 0 ∧
    ((holding keyed [] 12).mlen.toNat ≤ keyed.cfg.mcap ∧ (holding keyed [] 12).mlen.toNat % 8 ≠ 0) ∧
    ((holding keyed cipherBad 8).mlen.toNat ≠ 0 ∧ (holding keyed cipherBad 8).mlen.toNat % 8 = 0 ∧
      unpad (transformBlocks keyed.dk (holding keyed cipherBad 8).message) = none) := by decide +kernel

/-- The longest message that fits. -/
theorem witness_DecryptionInvertsEncryption :
    [(0x41 : Byte)] ≠ [] ∧ keyed.cfg.mcapWf ∧ keyed.ekv = true ∧ keyed.dkv = true ∧ keyed.dk = deriveDecryptionKeys keyed.ek ∧
    1 ≤ (holding keyed [] 23).mlen.toNat ∧ 8 * ((holding keyed [] 23).mlen.toNat / 8 + 1) ≤ keyed.cfg.mcap :=
  ⟨by decide, by decide, by decide, by decide, rfl, by decide, by decide⟩

theorem witness_EmptyMessageDoesNotRoundTrip :
    keyed.ekv = true ∧ keyed.dkv = true ∧ keyed.mlen = 0 ∧ [(0 : Byte)] ≠ [] := by decide

theorem witness_EncEqualsItsParts :
    keyed.cfg.mcapWf ∧ keyed.ekv = true ∧ 1 ≤ (holding keyed [] 16).mlen.toNat ∧
    (holding keyed [] 16).mlen.toNat + (8 - (holding keyed [] 16).mlen.toNat % 8) ≤ keyed.cfg.mcap := by decide

/-- A success that writes, and an error. -/
theorem witness_CommandsWriteOnlyTheirDestinations :
    (∃ t, exec .enc (holding keyed [0x41] 1) = .next t ∧ decide (t.err = 0) = true) ∧
    (∃ t, exec .dec (holding keyed cipherBad 8) = .next t ∧ decide (t.err ≠ 0) = true) :=
  ⟨exists_next (by decide +kernel), exists_next (by decide +kernel)⟩

/-- V6.2: `NoKey` comes before the length and before the success of the empty message; and KEXPE alone succeeds. -/
theorem witness_NoKeyExactly :
    (∃ t, exec .dec (holding State.reset [] 3) = .next t ∧ decide (t.err = 4) = true) ∧
    (∃ t, exec .enc State.reset = .next t ∧ decide (t.err = 4) = true) ∧
    (∃ t, exec .enc keyed = .next t ∧ decide (t.err = 0) = true) ∧
    (∃ t, exec .kexpe (offered 16) = .next t ∧ decide (t.err = 0) = true) :=
  ⟨exists_next (by decide +kernel), exists_next (by decide +kernel), exists_next (by decide +kernel),
    exists_next (by decide +kernel)⟩

/-- V5.3: the length above the capacity for all four, the padded length above it for ENC only. -/
theorem witness_CapacityExactly :
    (∃ t, exec .unpad (holding keyed [] 25) = .next t ∧ decide (t.err = 5) = true) ∧
    (∃ t, exec .dec (holding keyed [] 25) = .next t ∧ decide (t.err = 5) = true) ∧
    (∃ t, exec .enc (holding keyed [] 24) = .next t ∧ decide (t.err = 5) = true) ∧
    (∃ t, exec .pad (holding keyed [] 17) = .next t ∧ decide (t.err = 0) = true) :=
  ⟨exists_next (by decide +kernel), exists_next (by decide +kernel), exists_next (by decide +kernel),
    exists_next (by decide +kernel)⟩

/-- V5.3: lengths 0, 3 and 12. -/
theorem witness_InvalidBlockLengthExactly :
    (∃ t, exec .dec (holding keyed [] 0) = .next t ∧ decide (t.err = 2) = true) ∧
    (∃ t, exec .dec (holding keyed [] 3) = .next t ∧ decide (t.err = 2) = true) ∧
    (∃ t, exec .dec (holding keyed [] 12) = .next t ∧ decide (t.err = 2) = true) ∧
    (∃ t, exec .dec (holding keyed cipherA 8) = .next t ∧ decide (t.err = 0) = true) :=
  ⟨exists_next (by decide +kernel), exists_next (by decide +kernel), exists_next (by decide +kernel),
    exists_next (by decide +kernel)⟩

/-- Last byte 0, last byte 9, a message shorter than its last byte, the empty message, and DEC. -/
theorem witness_InvalidPaddingExactly :
    (∃ t, exec .unpad (holding keyed [0] 1) = .next t ∧ decide (t.err = 3) = true) ∧
    (∃ t, exec .unpad (holding keyed (List.replicate 16 9) 16) = .next t ∧ decide (t.err = 3) = true) ∧
    (∃ t, exec .unpad (holding keyed [0x41, 0x42, 5] 3) = .next t ∧ decide (t.err = 3) = true) ∧
    (∃ t, exec .unpad (holding keyed [] 0) = .next t ∧ decide (t.err = 3) = true) ∧
    (∃ t, exec .dec (holding keyed cipherBad 8) = .next t ∧ decide (t.err = 3) = true) :=
  ⟨exists_next (by decide +kernel), exists_next (by decide +kernel), exists_next (by decide +kernel),
    exists_next (by decide +kernel), exists_next (by decide +kernel)⟩

/-- V6.2 and V5.3, clause by clause: states in which a later cause holds as well. -/
theorem witness_ErrorPriority :
    (∃ t, issueCommand 0x1080 (holding State.reset [] 25) = .next t) ∧
    Spec.lacksKey .dec (holding State.reset [] 3) ∧
    (¬ Spec.lacksKey .dec (holding keyed [] 28) ∧ Spec.usesMessage .dec = true ∧
      keyed.cfg.mcap < (holding keyed [] 28).mlen.toNat) ∧
    (offered 15).klen ≠ 16 ∧
    ((holding keyed [] 12).mlen.toNat ≤ keyed.cfg.mcap ∧ (holding keyed [] 12).mlen.toNat % 8 ≠ 0) ∧
    ((holding keyed cipherBad 8).mlen.toNat % 8 = 0 ∧
      unpad (transformBlocks keyed.dk (holding keyed cipherBad 8).message) = none) ∧
    (keyed.ekv = true ∧ keyed.mlen = 0) ∧
    ((holding keyed [] 24).mlen.toNat ≤ keyed.cfg.mcap ∧
      keyed.cfg.mcap < (holding keyed [] 24).mlen.toNat + (8 - (holding keyed [] 24).mlen.toNat % 8)) := by
  refine ⟨⟨_, rfl⟩, .inr ⟨rfl, by decide⟩, ⟨?_, rfl, by decide⟩, by decide, by decide, ?_, by decide, by decide⟩
  · rintro (⟨h, _⟩ | ⟨_, h⟩)
    · exact absurd h (by decide)
    · exact absurd h (by decide)
  · decide +kernel

/-- Bad padding under two tables (V5.2 rows 7 and, by the first table's bytes, another), and a failing UNPAD. -/
theorem witness_FailedPaddingExposesNothing :
    (∃ t, exec .unpad (holding keyed [] 0) = .next t ∧ decide (t.err = 3) = true) ∧
    (∃ t, exec .dec (holding keyed cipherBad 8) = .next t ∧ decide (t.err = 3) = true) ∧
    (∃ t, exec .dec { holding keyed cipherBad 8 with dk := Vector.replicate 52 0 } = .next t ∧ decide (t.err = 3) = true) :=
  ⟨exists_next (by decide +kernel), exists_next (by decide +kernel), exists_next (by decide +kernel)⟩

/-- A map with other addresses, and a host about to act. -/
theorem witness_NoRuleReadsTheRegmap :
    (keyed.withRegmap (Vector.ofFn fun i => 4 * i.val)).cfg ≠ keyed.cfg ∧
    ∃ t, step ((about .reset).withRegmap (Vector.ofFn fun i => 4 * i.val)) = .next t :=
  ⟨by decide +kernel, ⟨_, rfl⟩⟩

/-- A state with bytes in both buffers and both tables valid, about to encrypt. -/
def running : State :=
  { holding keyed [0x41] 1 with kin := Memory.writeRange [] 0 key1.toList, klen := 16, actions := [.issue 0x5000] }

theorem running_steps : ∃ t, step running = .next t := by
  obtain ⟨t, h, _⟩ := exists_next (i := .enc) (s := { running with actions := [] }) (p := fun _ => true) (by decide +kernel)
  exact ⟨t, h⟩

theorem witness_StepKeepsBuffersCanonical : MemoryInv running ∧ ∃ t, step running = .next t :=
  ⟨⟨by decide, by decide +kernel, by decide, by decide +kernel⟩, running_steps⟩

theorem witness_StepKeepsTheCipherInstance : KeyInv running ∧ ∃ t, step running = .next t :=
  ⟨⟨by decide, fun _ => ⟨key1, rfl⟩, fun _ => rfl⟩, running_steps⟩

theorem witness_StepKeepsStatusLegal : StatusInv running ∧ ∃ t, step running = .next t := by
  refine ⟨⟨fun i hi => ?_, by decide⟩, running_steps⟩
  have h : ∀ k : Fin 8, 2 ≤ k.val → running.stat.getLsbD k.val = false := by decide
  by_cases h8 : i < 8
  · exact h ⟨i, h8⟩ hi
  · exact BitVec.getLsbD_of_ge _ _ (by omega)

end Sys2Proof.Tests
end

section
/-! PROOF. No rule reads the bus map (00_scope.md R6, 20_memory.md R67). `State.withRegmap` changes one field that no reader
reads and no update writes, so what a rule computes is the same on another platform by definition, up to its case splits: the
lemmas below say how `mapNext` goes into those, then go up from the commands to the host's actions and the step. -/

namespace Sys2Proof.Machine

/-- A rule that does on every platform what it does on this one, and leaves the platform as it is. -/
def IgnoresRegmap (rule : State → Host.Outcome State Fault Refusal) : Prop :=
  ∀ (s : State) (f : RegMap), rule (s.withRegmap f) = mapNext (·.withRegmap f) (rule s)

/-! ## Readers and updates -/

theorem State.withRegmap_self (s : State) : s.withRegmap s.cfg.regmap = s := rfl

@[simp] theorem State.withRegmap_message (s : State) (f : RegMap) : (s.withRegmap f).message = s.message := rfl

@[simp] theorem State.withRegmap_hostLoad (s : State) (f : RegMap) (loc : Loc) :
    (s.withRegmap f).hostLoad loc = s.hostLoad loc := by
  cases loc <;> rfl

theorem State.blockCommand_withRegmap (s : State) (f : RegMap) (t : TableSelect) (g : SubkeyTable → Block → Block) :
    (s.withRegmap f).blockCommand t g = (s.blockCommand t g).withRegmap f := by
  simp only [blockCommand, apply_ite (State.withRegmap · f)]
  cases t <;> rfl

/-- A change of the state after a store is made is made on the state the store leaves. -/
theorem map_map_fit {n : Nat} (loc : Loc) (v : Nat) (store : BitVec n → State) (g : State → State) :
    ((fit n loc v).map store).map g = (fit n loc v).map fun w => g (store w) := by
  cases fit n loc v <;> rfl

theorem State.hostStore_withRegmap (s : State) (f : RegMap) (loc : Loc) (v : Nat) :
    (s.withRegmap f).hostStore loc v = (s.hostStore loc v).map (·.withRegmap f) := by
  cases loc with
  | res | stat | err | cmd => rfl
  | ek i | dk i =>
    simp only [hostStore]
    split <;> rfl
  | bb i | kin i | m i =>
    simp only [hostStore, apply_ite (Except.map _), apply_dite (Except.map _), map_map_fit]
    rfl
  | opa | opb | x1 | x2 | x3 | x4 | klen | mlen =>
    simp only [hostStore, map_map_fit]
    rfl

/-! ## Commands -/

theorem mapNext_ite (g : State → State) (c : Prop) [Decidable c] (a b : Host.Outcome State Fault Refusal) :
    mapNext g (if c then a else b) = if c then mapNext g a else mapNext g b := apply_ite ..

theorem execUnpad_ignoresRegmap : IgnoresRegmap execUnpad := by
  intro s f
  simp only [execUnpad, mapNext_ite, State.withRegmap_message]
  cases paddingCount s.message <;> rfl

theorem execDec_ignoresRegmap : IgnoresRegmap execDec := by
  intro s f
  simp only [execDec, mapNext_ite, State.withRegmap_message, State.withRegmap_dk]
  cases paddingCount (transformBlocks s.dk s.message) <;> rfl

/-- ROUND, OUTXF and XFORM, with either table (43_block_transform.md R201, R203, R206). -/
theorem blockCommand_ignoresRegmap (t : TableSelect) (g : SubkeyTable → Block → Block) :
    IgnoresRegmap fun s => .next (s.blockCommand t g) :=
  fun s f => congrArg Host.Outcome.next (s.blockCommand_withRegmap f t g)

/-- The commands by what their meanings branch on: nothing, conditions alone, the padding count, or a table's valid bit. -/
theorem exec_ignoresRegmap (i : Instr) : IgnoresRegmap (exec i) := by
  cases i with
  | mulmod | mulinv | b2w | w2b => exact fun _ _ => rfl
  | pad | kexpe | kexpd | new | enc =>
    intro s f
    simp only [exec, execPad, execKexpe, execKexpd, execNew, execEnc, mapNext_ite]
    rfl
  | unpad => exact execUnpad_ignoresRegmap
  | roundE r | roundD r | outxfE | outxfD | xformE | xformD => exact blockCommand_ignoresRegmap _ _
  | dec => exact execDec_ignoresRegmap

/-! ## The host's actions and the step -/

theorem issueCommand_ignoresRegmap (c : Word) : IgnoresRegmap (issueCommand c) := by
  intro s f
  unfold issueCommand
  cases decode c with
  | ok i => exact exec_ignoresRegmap i s f
  | error _ => rfl

theorem hostWrite_ignoresRegmap (loc : Loc) (v : Nat) : IgnoresRegmap (hostWrite loc v) := by
  intro s f
  unfold hostWrite
  split
  · cases fit 16 loc v with
    | ok c => exact issueCommand_ignoresRegmap c s f
    | error _ => rfl
  · rw [State.hostStore_withRegmap]
    cases s.hostStore loc v <;> rfl

theorem hostRead_ignoresRegmap (loc : Loc) : IgnoresRegmap (hostRead loc) := by
  intro s f
  simp only [hostRead, State.withRegmap_hostLoad]
  cases s.hostLoad loc <;> rfl

theorem perform_ignoresRegmap (a : HostAction) : IgnoresRegmap (perform a) := by
  cases a with
  | write loc v => exact hostWrite_ignoresRegmap loc v
  | issue c => exact issueCommand_ignoresRegmap c
  | read loc => exact hostRead_ignoresRegmap loc
  | reset => exact fun _ _ => rfl

theorem step_ignoresRegmap : IgnoresRegmap step := by
  intro s f
  simp only [step, nextEvent, State.withRegmap_actions]
  cases s.actions with
  | nil => rfl
  | cons a rest => exact perform_ignoresRegmap a { s with actions := rest } f

/-- `step_ignoresRegmap` with the state's own map: it puts the next state on the platform of the state. -/
theorem step_keeps_regmap {s t : State} (h : step s = .next t) : t.cfg.regmap = s.cfg.regmap := by
  have hstep := step_ignoresRegmap s s.cfg.regmap
  rw [State.withRegmap_self, h, mapNext_next] at hstep
  have ht : t = t.withRegmap s.cfg.regmap := by injection hstep
  rw [ht, State.withRegmap_regmap]

/-- Settles O56, by going up from the commands to the step; that a step keeps the map is the case of the state's own map. -/
theorem noRuleReadsTheRegmap : Obligations.NoRuleReadsTheRegmap :=
  ⟨exec_ignoresRegmap, step_ignoresRegmap, State.withRegmap_hostLoad, fun _ _ => step_keeps_regmap⟩

end Sys2Proof.Machine
end

section
/-! PROOF. Frames (10_state.md R39). Each update of Machine/Ops.lean that writes only allowed places keeps a frame, so the frame
of a command is the chain of its updates; and the tables, `STAT` and `ERR` are what the host reads of them. -/

namespace Sys2Proof.Machine

theorem SameOutside.refl (W : Loc → Prop) (s : State) : SameOutside W s s :=
  ⟨⟨rfl, rfl, rfl, rfl⟩, fun _ _ => rfl⟩

theorem SameOutside.trans {W : Loc → Prop} {s t u : State} (hst : SameOutside W s t) (htu : SameOutside W t u) :
    SameOutside W s u := by
  obtain ⟨⟨hcfg, hresets, hactions, hreplies⟩, hload⟩ := hst
  obtain ⟨⟨hcfg', hresets', hactions', hreplies'⟩, hload'⟩ := htu
  exact ⟨⟨hcfg'.trans hcfg, hresets'.trans hresets, hactions'.trans hactions, hreplies'.trans hreplies⟩,
    fun loc hn => (hload' loc hn).trans (hload loc hn)⟩

/-! ## One update more -/

section Updates

variable {W : Loc → Prop} {s t : State}

theorem SameOutside.setErr (h : SameOutside W s t) (hw : W .err) (c : Byte) : SameOutside W s (t.setErr c) := by
  refine h.trans ⟨⟨rfl, rfl, rfl, rfl⟩, fun loc hn => ?_⟩
  cases loc with
  | err => exact absurd hw hn
  | _ => rfl

theorem SameOutside.setRes (h : SameOutside W s t) (hw : W .res) (w : Word) : SameOutside W s (t.setRes w) := by
  refine h.trans ⟨⟨rfl, rfl, rfl, rfl⟩, fun loc hn => ?_⟩
  cases loc with
  | res => exact absurd hw hn
  | _ => rfl

theorem SameOutside.setBlock (h : SameOutside W s t) (h1 : W .x1) (h2 : W .x2) (h3 : W .x3) (h4 : W .x4) (b : Block) :
    SameOutside W s (t.setBlock b) := by
  refine h.trans ⟨⟨rfl, rfl, rfl, rfl⟩, fun loc hn => ?_⟩
  cases loc with
  | x1 => exact absurd h1 hn
  | x2 => exact absurd h2 hn
  | x3 => exact absurd h3 hn
  | x4 => exact absurd h4 hn
  | _ => rfl

theorem SameOutside.setBB (h : SameOutside W s t) (hw : ∀ i, W (.bb i)) (v : Vector Byte 8) :
    SameOutside W s (t.setBB v) := by
  refine h.trans ⟨⟨rfl, rfl, rfl, rfl⟩, fun loc hn => ?_⟩
  cases loc with
  | bb i => exact absurd (hw i) hn
  | _ => rfl

theorem SameOutside.setEK (h : SameOutside W s t) (hw : ∀ i, W (.ek i)) (k : SubkeyTable) :
    SameOutside W s (t.setEK k) := by
  refine h.trans ⟨⟨rfl, rfl, rfl, rfl⟩, fun loc hn => ?_⟩
  cases loc with
  | ek i => exact absurd (hw i) hn
  | _ => rfl

theorem SameOutside.setDK (h : SameOutside W s t) (hw : ∀ i, W (.dk i)) (k : SubkeyTable) :
    SameOutside W s (t.setDK k) := by
  refine h.trans ⟨⟨rfl, rfl, rfl, rfl⟩, fun loc hn => ?_⟩
  cases loc with
  | dk i => exact absurd (hw i) hn
  | _ => rfl

theorem SameOutside.setEkv (h : SameOutside W s t) (hw : W .stat) (b : Bool) : SameOutside W s (t.setEkv b) := by
  refine h.trans ⟨⟨rfl, rfl, rfl, rfl⟩, fun loc hn => ?_⟩
  cases loc with
  | stat => exact absurd hw hn
  | _ => rfl

theorem SameOutside.setDkv (h : SameOutside W s t) (hw : W .stat) (b : Bool) : SameOutside W s (t.setDkv b) := by
  refine h.trans ⟨⟨rfl, rfl, rfl, rfl⟩, fun loc hn => ?_⟩
  cases loc with
  | stat => exact absurd hw hn
  | _ => rfl

theorem SameOutside.setMlen (h : SameOutside W s t) (hw : W .mlen) (n : Nat) : SameOutside W s (t.setMlen n) := by
  refine h.trans ⟨⟨rfl, rfl, rfl, rfl⟩, fun loc hn => ?_⟩
  cases loc with
  | mlen => exact absurd hw hn
  | _ => rfl

/-- Of `M` only the bytes of the range written have to be allowed. -/
theorem SameOutside.writeMessage (h : SameOutside W s t) (a : Nat) (bs : List Byte)
    (hw : ∀ k, a ≤ k → k < a + bs.length → W (.m k)) : SameOutside W s (t.writeMessage a bs) := by
  refine h.trans ⟨⟨rfl, rfl, rfl, rfl⟩, fun loc hn => ?_⟩
  cases loc with
  | m k =>
    have hk : k < a ∨ a + bs.length ≤ k := by
      by_contra hin
      exact hn (hw k (by omega) (by omega))
    simp only [State.hostLoad, State.messageByte_writeMessage_outside t a bs k hk, State.writeMessage_cfg]
  | _ => rfl

end Updates

/-! ## What a frame says of the registers themselves -/

theorem SameOutside.ek_eq {W : Loc → Prop} {s t : State} (h : SameOutside W s t) (hw : ∀ i, ¬ W (.ek i)) : t.ek = s.ek := by
  refine Vector.ext fun i hi => BitVec.eq_of_toNat_eq ?_
  simpa [State.hostLoad, hi] using h.2 (.ek i) (hw i)

theorem SameOutside.dk_eq {W : Loc → Prop} {s t : State} (h : SameOutside W s t) (hw : ∀ i, ¬ W (.dk i)) : t.dk = s.dk := by
  refine Vector.ext fun i hi => BitVec.eq_of_toNat_eq ?_
  simpa [State.hostLoad, hi] using h.2 (.dk i) (hw i)

theorem SameOutside.stat_eq {W : Loc → Prop} {s t : State} (h : SameOutside W s t) (hw : ¬ W .stat) : t.stat = s.stat :=
  BitVec.eq_of_toNat_eq (Except.ok.inj (h.2 .stat hw))

theorem SameOutside.err_eq {W : Loc → Prop} {s t : State} (h : SameOutside W s t) (hw : ¬ W .err) : t.err = s.err :=
  BitVec.eq_of_toNat_eq (Except.ok.inj (h.2 .err hw))

end Sys2Proof.Machine
end

section
/-! PROOF. What a command can do, said once: it raises one of its own errors, or it succeeds with the effect its rule names. The
frame of every command follows, since each effect is made of the updates of Machine/Ops.lean. -/

namespace Sys2Proof.Machine

/-! ## The endings of a command -/

/-- What a command leaves when it succeeds, before `done`: one constructor per row of 10_state.md R39, and a second one for
ENC on the empty message (44_cipher_facade.md R231). -/
inductive Succeeds (s : State) : Instr → State → Prop where
  | mulmod : Succeeds s .mulmod (s.setRes (mulMod s.opa s.opb))
  | mulinv : Succeeds s .mulinv (s.setRes (mulInverse s.opa))
  | b2w : Succeeds s .b2w (s.setBlock (blockOfBytes s.bb))
  | w2b : Succeeds s .w2b (s.setBB (bytesOfBlock s.block))
  | pad (hcap : s.mlen.toNat + padCount s.mlen.toNat ≤ s.cfg.mcap) :
    Succeeds s .pad ((s.writeMessage s.mlen.toNat (padding (padCount s.mlen.toNat))).setMlen
      (s.mlen.toNat + padCount s.mlen.toNat))
  | unpad {n : Nat} (hcap : s.mlen.toNat ≤ s.cfg.mcap) (hn : paddingCount s.message = some n) :
    Succeeds s .unpad (s.setMlen (s.mlen.toNat - n))
  | kexpe (hk : s.klen = 16) : Succeeds s .kexpe (((s.setEK s.derivedEK).setEkv true).setDkv false)
  | kexpd (hv : s.ekv = true) : Succeeds s .kexpd ((s.setDK (deriveDecryptionKeys s.ek)).setDkv true)
  | new (hk : s.klen = 16) :
    Succeeds s .new ((((s.setEK s.derivedEK).setDK (deriveDecryptionKeys s.derivedEK)).setEkv true).setDkv true)
  | roundE (r : Fin 8) (hv : s.ekv = true) : Succeeds s (.roundE r) (s.setBlock (blockRound s.block (roundKeys s.ek r)))
  | roundD (r : Fin 8) (hv : s.dkv = true) : Succeeds s (.roundD r) (s.setBlock (blockRound s.block (roundKeys s.dk r)))
  | outxfE (hv : s.ekv = true) : Succeeds s .outxfE (s.setBlock (outxf s.block (outputKeys s.ek)))
  | outxfD (hv : s.dkv = true) : Succeeds s .outxfD (s.setBlock (outxf s.block (outputKeys s.dk)))
  | xformE (hv : s.ekv = true) : Succeeds s .xformE (s.setBlock (transform s.ek s.block))
  | xformD (hv : s.dkv = true) : Succeeds s .xformD (s.setBlock (transform s.dk s.block))
  | encEmpty (hv : s.ekv = true) (h0 : s.mlen.toNat = 0) : Succeeds s .enc s
  | enc (hv : s.ekv = true) (h0 : s.mlen.toNat ≠ 0) (hcap : s.mlen.toNat + padCount s.mlen.toNat ≤ s.cfg.mcap) :
    Succeeds s .enc ((s.writeMessage 0 (encryptBytes s.ek s.message)).setMlen (s.mlen.toNat + padCount s.mlen.toNat))
  | dec {n : Nat} (hv : s.dkv = true) (hcap : s.mlen.toNat ≤ s.cfg.mcap) (h0 : s.mlen.toNat ≠ 0)
    (h8 : s.mlen.toNat % 8 = 0) (hn : paddingCount (transformBlocks s.dk s.message) = some n) :
    Succeeds s .dec ((s.writeMessage 0 (transformBlocks s.dk s.message)).setMlen (s.mlen.toNat - n))

/-- A command ends, by raising one of its own errors or in success. -/
def Ends (i : Instr) (s : State) (o : Host.Outcome State Fault Refusal) : Prop :=
  (∃ e ∈ errorsOf i, o = .next (s.raise e)) ∨ ∃ u, Succeeds s i u ∧ o = .next u.done

theorem blockCommand_ends {i : Instr} (s : State) (t : TableSelect) (f : SubkeyTable → Block → Block)
    (herr : errorsOf i = [.noKey]) (hok : s.tableValid t = true → Succeeds s i (s.setBlock (f (s.table t) s.block))) :
    Ends i s (.next (s.blockCommand t f)) := by
  rcases s.blockCommand_cases t f with ⟨-, h⟩ | ⟨hv, h⟩
  · exact .inl ⟨.noKey, by simp [herr], by rw [h]⟩
  · exact .inr ⟨_, hok hv, by rw [h]⟩

theorem exec_ends (i : Instr) (s : State) : Ends i s (exec i s) := by
  cases i with
  | mulmod => exact .inr ⟨_, .mulmod, rfl⟩
  | mulinv => exact .inr ⟨_, .mulinv, rfl⟩
  | b2w => exact .inr ⟨_, .b2w, rfl⟩
  | w2b => exact .inr ⟨_, .w2b, rfl⟩
  | pad =>
    rcases execPad_cases s with ⟨-, h⟩ | ⟨hcap, h⟩
    · exact .inl ⟨_, by simp [errorsOf], h⟩
    · exact .inr ⟨_, .pad hcap, h⟩
  | unpad =>
    rcases execUnpad_cases s with ⟨-, h⟩ | ⟨-, -, h⟩ | ⟨hcap, n, hn, h⟩
    · exact .inl ⟨_, by simp [errorsOf], h⟩
    · exact .inl ⟨_, by simp [errorsOf], h⟩
    · exact .inr ⟨_, .unpad hcap hn, h⟩
  | kexpe =>
    rcases execKexpe_cases s with ⟨-, h⟩ | ⟨hk, h⟩
    · exact .inl ⟨_, by simp [errorsOf], h⟩
    · exact .inr ⟨_, .kexpe hk, h⟩
  | kexpd =>
    rcases execKexpd_cases s with ⟨-, h⟩ | ⟨hv, h⟩
    · exact .inl ⟨_, by simp [errorsOf], h⟩
    · exact .inr ⟨_, .kexpd hv, h⟩
  | new =>
    rcases execNew_cases s with ⟨-, h⟩ | ⟨hk, h⟩
    · exact .inl ⟨_, by simp [errorsOf], h⟩
    · exact .inr ⟨_, .new hk, h⟩
  | roundE r => exact blockCommand_ends s .e _ rfl (.roundE r)
  | roundD r => exact blockCommand_ends s .d _ rfl (.roundD r)
  | outxfE => exact blockCommand_ends s .e _ rfl .outxfE
  | outxfD => exact blockCommand_ends s .d _ rfl .outxfD
  | xformE => exact blockCommand_ends s .e _ rfl .xformE
  | xformD => exact blockCommand_ends s .d _ rfl .xformD
  | enc =>
    rcases execEnc_cases s with ⟨-, h⟩ | ⟨-, -, h⟩ | ⟨hv, h0, h⟩ | ⟨hv, h0, hcap, h⟩
    · exact .inl ⟨_, by simp [errorsOf], h⟩
    · exact .inl ⟨_, by simp [errorsOf], h⟩
    · exact .inr ⟨_, .encEmpty hv h0, h⟩
    · exact .inr ⟨_, .enc hv h0 hcap, h⟩
  | dec =>
    rcases execDec_cases s with ⟨-, h⟩ | ⟨-, -, h⟩ | ⟨-, -, -, h⟩ | ⟨-, -, -, -, -, h⟩ | ⟨hv, hcap, h0, h8, n, hn, h⟩
    · exact .inl ⟨_, by simp [errorsOf], h⟩
    · exact .inl ⟨_, by simp [errorsOf], h⟩
    · exact .inl ⟨_, by simp [errorsOf], h⟩
    · exact .inl ⟨_, by simp [errorsOf], h⟩
    · exact .inr ⟨_, .dec hv hcap h0 h8 hn, h⟩

/-- Inversion of a command: the next state is the state with an error of the command's own set, or a success that is `done`. -/
theorem exec_cases {i : Instr} {s t : State} (h : exec i s = .next t) :
    (∃ e ∈ errorsOf i, t = s.raise e) ∨ ∃ u, Succeeds s i u ∧ t = u.done := by
  rcases exec_ends i s with ⟨e, he, h'⟩ | ⟨u, hu, h'⟩
  · exact .inl ⟨e, he, Host.Outcome.next.inj (h.symm.trans h')⟩
  · exact .inr ⟨u, hu, Host.Outcome.next.inj (h.symm.trans h')⟩

/-- Every command answers a next state (60_exceptions.md R250). -/
theorem exec_answers (i : Instr) (s : State) : ∃ t, exec i s = .next t := by
  rcases exec_ends i s with ⟨e, -, h⟩ | ⟨u, -, h⟩
  · exact ⟨_, h⟩
  · exact ⟨_, h⟩

/-! ## The frame of a command -/

theorem writes_err (s : State) (i : Instr) : Spec.writes s i .err := by
  cases i <;> simp [Spec.writes]

theorem writes_ek_iff {s : State} {i : Instr} {k : Nat} : Spec.writes s i (.ek k) ↔ i = .kexpe ∨ i = .new := by
  cases i <;> simp [Spec.writes]

theorem writes_dk_iff {s : State} {i : Instr} {k : Nat} : Spec.writes s i (.dk k) ↔ i = .kexpd ∨ i = .new := by
  cases i <;> simp [Spec.writes]

theorem writes_stat_iff {s : State} {i : Instr} : Spec.writes s i .stat ↔ i = .kexpe ∨ i = .kexpd ∨ i = .new := by
  cases i <;> simp [Spec.writes]

/-- The padded message is whole blocks, so its encryption is as long as it is (44_cipher_facade.md R230). -/
theorem encryptBytes_length {bs : List Byte} (ek : SubkeyTable) (h : bs ≠ []) :
    (encryptBytes ek bs).length = bs.length + padCount bs.length := by
  have hpad : (pad bs).length = bs.length + padCount bs.length := by simp [pad]
  have h8 : (pad bs).length % 8 = 0 := by rw [hpad, add_padCount]; omega
  rw [encryptBytes, if_neg h, transformBlocks_length ek _ h8, hpad]

theorem encryptBytes_message_length {s : State} (h0 : s.mlen.toNat ≠ 0) :
    (encryptBytes s.ek s.message).length = s.mlen.toNat + padCount s.mlen.toNat := by
  have hne : s.message ≠ [] := fun hnil => h0 (by rw [← s.message_length, hnil]; rfl)
  rw [encryptBytes_length s.ek hne, s.message_length]

theorem Succeeds.sameOutside {i : Instr} {s u : State} (h : Succeeds s i u) : SameOutside (Spec.writes s i) s u := by
  have same : SameOutside (Spec.writes s i) s s := .refl _ s
  cases h with
  | mulmod | mulinv => exact same.setRes (by simp [Spec.writes]) _
  | b2w | roundE | roundD | outxfE | outxfD | xformE | xformD =>
    exact same.setBlock (by simp [Spec.writes]) (by simp [Spec.writes]) (by simp [Spec.writes]) (by simp [Spec.writes]) _
  | w2b => exact same.setBB (by simp [Spec.writes]) _
  | pad hcap =>
    refine (same.writeMessage _ _ fun k hle hlt => ?_).setMlen (by simp [Spec.writes]) _
    rw [padding_length] at hlt
    exact .inl ⟨k, rfl, hle, hlt⟩
  | unpad => exact same.setMlen (by simp [Spec.writes]) _
  | kexpe =>
    exact ((same.setEK (by simp [Spec.writes]) _).setEkv (by simp [Spec.writes]) _).setDkv (by simp [Spec.writes]) _
  | kexpd => exact (same.setDK (by simp [Spec.writes]) _).setDkv (by simp [Spec.writes]) _
  | new =>
    exact (((same.setEK (by simp [Spec.writes]) _).setDK (by simp [Spec.writes]) _).setEkv (by simp [Spec.writes]) _).setDkv
      (by simp [Spec.writes]) _
  | encEmpty => exact same
  | enc _ h0 =>
    refine (same.writeMessage _ _ fun k _ hlt => ?_).setMlen (by simp [Spec.writes]) _
    rw [encryptBytes_message_length h0, Nat.zero_add] at hlt
    exact .inl ⟨k, rfl, hlt⟩
  | dec _ _ _ h8 =>
    refine (same.writeMessage _ _ fun k _ hlt => ?_).setMlen (by simp [Spec.writes]) _
    rw [transformBlocks_length s.dk _ (by rwa [s.message_length]), s.message_length, Nat.zero_add] at hlt
    exact .inl ⟨k, rfl, hlt⟩

/-- An error changes `ERR` only (60_exceptions.md R260). -/
theorem State.raise_sameOutside (s : State) (e : ErrorKind) : SameOutside (· = .err) s (s.raise e) :=
  SameOutside.setErr (W := (· = .err)) (.refl _ s) rfl _

theorem exec_sameOutside {i : Instr} {s t : State} (h : exec i s = .next t) : SameOutside (Spec.writes s i) s t := by
  rcases exec_cases h with ⟨e, -, rfl⟩ | ⟨u, hu, rfl⟩
  · exact (SameOutside.refl _ s).setErr (writes_err s i) _
  · exact hu.sameOutside.setErr (writes_err s i) _

/-- A command that ends in an error has only set `ERR`. -/
theorem exec_error_sameOutside {i : Instr} {s t : State} (h : exec i s = .next t) (herr : t.err ≠ 0) :
    SameOutside (· = .err) s t := by
  rcases exec_cases h with ⟨e, -, rfl⟩ | ⟨u, -, rfl⟩
  · exact s.raise_sameOutside e
  · exact absurd u.done_err herr

/-! ## The statements -/

/-- Settles O49, from the updates each success is made of. -/
theorem commandsWriteOnlyTheirDestinations : Obligations.CommandsWriteOnlyTheirDestinations :=
  fun _ _ _ h => ⟨exec_sameOutside h, exec_error_sameOutside h⟩

/-- Settles O35, as a consequence of the frame: the tables and `STAT` are what the host reads of them. -/
theorem onlyKeySchedulerWritesTables : Obligations.OnlyKeySchedulerWritesTables := by
  intro i s t h
  have hframe := exec_sameOutside h
  have hek (he : i ≠ .kexpe) (hn : i ≠ .new) : t.ek = s.ek := hframe.ek_eq fun _ hw => (writes_ek_iff.mp hw).elim he hn
  have hdk (hd : i ≠ .kexpd) (hn : i ≠ .new) : t.dk = s.dk := hframe.dk_eq fun _ hw => (writes_dk_iff.mp hw).elim hd hn
  refine ⟨?_, hek, hdk⟩
  rintro (⟨he, hd, hn⟩ | herr)
  · have hstat : ¬ Spec.writes s i .stat := by simp [writes_stat_iff, he, hd, hn]
    exact ⟨hek he hn, hdk hd hn, hframe.stat_eq hstat⟩
  · have honly := exec_error_sameOutside h herr
    exact ⟨honly.ek_eq fun _ => Loc.noConfusion, honly.dk_eq fun _ => Loc.noConfusion, honly.stat_eq Loc.noConfusion⟩

end Sys2Proof.Machine
end

section
/-! PROOF. The host's port (10_state.md R38): which actions are refused, what a write leaves in its place and elsewhere, and what
a read gives. The refusals are read off two equations: a store or a load goes through exactly for a well-formed action. -/

namespace Sys2Proof.Machine

/-! ## The host's store -/

/-- A store goes through exactly when the value fits the place. -/
theorem map_fit_eq_ok {n : Nat} {loc : Loc} {v : Nat} {store : BitVec n → State} {t : State} :
    (fit n loc v).map store = .ok t ↔ v < 2 ^ n ∧ t = store (BitVec.ofNat n v) := by
  by_cases hv : v < 2 ^ n
  · simp [fit_ok n loc v hv, Except.map, hv, eq_comm]
  · simp [fit_error n loc v hv, Except.map, hv]

theorem isOk_map_fit {n : Nat} (loc : Loc) (v : Nat) (store : BitVec n → State) :
    ((fit n loc v).map store).isOk = decide (v < 2 ^ n) := by
  by_cases hv : v < 2 ^ n
  · simp [fit_ok n loc v hv, Except.map, Except.isOk, Except.toBool, hv]
  · simp [fit_error n loc v hv, Except.map, Except.isOk, Except.toBool, hv]

/-- What the host may write: the right place, inside its shape, a value of its width (10_state.md R38). -/
theorem State.hostStore_isOk (s : State) {loc : Loc} (v : Nat) (hc : loc ≠ .cmd) :
    (s.hostStore loc v).isOk = (HostAction.write loc v).wellFormed s.cfg := by
  cases loc with
  | cmd => exact absurd rfl hc
  | res | stat | err => rfl
  | ek i | dk i =>
    simp only [hostStore, HostAction.wellFormed, Loc.hostWrites, Bool.and_false, Bool.false_and]
    split <;> rfl
  | bb i | kin i | m i =>
    simp only [hostStore, HostAction.wellFormed, Loc.inShape, Loc.hostWrites, Bool.and_true]
    split
    · next hi => rw [decide_eq_true hi, Bool.true_and]; exact isOk_map_fit _ v _
    · next hi => rw [decide_eq_false hi, Bool.false_and]; rfl
  | opa | opb | x1 | x2 | x3 | x4 | klen | mlen => exact isOk_map_fit _ v _

/-- The place written reads as the value written. -/
theorem State.hostLoad_hostStore {s t : State} {loc : Loc} {v : Nat} (h : s.hostStore loc v = .ok t) (hc : loc ≠ .cmd) :
    t.hostLoad loc = .ok v := by
  cases loc with
  | cmd => exact absurd rfl hc
  | res | stat | err => cases h
  | ek i | dk i =>
    simp only [hostStore] at h
    split at h <;> cases h
  | opa | opb | x1 | x2 | x3 | x4 | klen | mlen =>
    obtain ⟨hv, rfl⟩ := map_fit_eq_ok.mp h
    simp only [hostLoad, BitVec.toNat_ofNat, Nat.mod_eq_of_lt hv]
  | bb i | kin i | m i =>
    simp only [hostStore] at h
    split at h
    · next hi =>
      obtain ⟨hv, rfl⟩ := map_fit_eq_ok.mp h
      have hnat : (BitVec.ofNat 8 v).toNat = v := Nat.mod_eq_of_lt hv
      simp [hostLoad, hi, keyByte, messageByte, Memory.read_write, hnat, -BitVec.toNat_ofNat]
    · cases h

/-- Every other place, and the model's own fields, are as before the store. -/
theorem State.hostStore_sameOutside {s t : State} {loc : Loc} {v : Nat} (h : s.hostStore loc v = .ok t) :
    SameOutside (· = loc) s t := by
  cases loc with
  | cmd => cases h; exact .refl _ s
  | res | stat | err => cases h
  | ek i | dk i =>
    simp only [hostStore] at h
    split at h <;> cases h
  | opa | opb | x1 | x2 | x3 | x4 | klen | mlen =>
    obtain ⟨-, rfl⟩ := map_fit_eq_ok.mp h
    refine ⟨⟨rfl, rfl, rfl, rfl⟩, fun l hl => ?_⟩
    cases l <;> first | exact absurd rfl hl | rfl
  | bb i =>
    simp only [hostStore] at h
    split at h
    · obtain ⟨-, rfl⟩ := map_fit_eq_ok.mp h
      refine ⟨⟨rfl, rfl, rfl, rfl⟩, fun l hl => ?_⟩
      cases l with
      | bb j =>
        have hij : i ≠ j := fun e => hl (e ▸ rfl)
        simp only [hostLoad, Vector.getElem_set_ne _ _ hij]
      | _ => rfl
    · cases h
  | kin i =>
    simp only [hostStore] at h
    split at h
    · obtain ⟨-, rfl⟩ := map_fit_eq_ok.mp h
      refine ⟨⟨rfl, rfl, rfl, rfl⟩, fun l hl => ?_⟩
      cases l with
      | kin j =>
        have hji : j ≠ i := fun e => hl (e ▸ rfl)
        simp only [hostLoad, keyByte, Memory.read_write, if_neg hji]
      | _ => rfl
    · cases h
  | m i =>
    simp only [hostStore] at h
    split at h
    · obtain ⟨-, rfl⟩ := map_fit_eq_ok.mp h
      refine ⟨⟨rfl, rfl, rfl, rfl⟩, fun l hl => ?_⟩
      cases l with
      | m j =>
        have hji : j ≠ i := fun e => hl (e ▸ rfl)
        simp only [hostLoad, messageByte, Memory.read_write, if_neg hji]
      | _ => rfl
    · cases h

/-! ## The host's read -/

/-- What the host may read: every place but `CMD`, inside its shape (10_state.md R38). -/
theorem State.hostLoad_isOk (s : State) (loc : Loc) :
    (s.hostLoad loc).isOk = (HostAction.read loc).wellFormed s.cfg := by
  cases loc with
  | opa | opb | res | x1 | x2 | x3 | x4 | klen | mlen | stat | err | cmd => rfl
  | bb i | ek i | dk i | kin i | m i =>
    simp only [hostLoad, HostAction.wellFormed, Loc.inShape, Loc.hostReads, Bool.and_true]
    split
    · next hi => exact (decide_eq_true hi).symm
    · next hi => exact (decide_eq_false hi).symm

/-! ## Actions as steps -/

/-- A step with an action to come performs it on the state from which it has been taken. -/
theorem step_of_actions {s : State} {a : HostAction} {rest : List HostAction} (h : s.actions = a :: rest) :
    step s = perform a { s with actions := rest } := by
  simp only [step, nextEvent, h]

theorem issueCommand_answers (c : Word) (s : State) : ∃ t, issueCommand c s = .next t := by
  unfold issueCommand
  cases decode c with
  | ok i => exact exec_answers i s
  | error _ => exact ⟨_, rfl⟩

theorem hostWrite_of_hostStore {s t : State} {loc : Loc} {v : Nat} (hc : loc ≠ .cmd) (h : s.hostStore loc v = .ok t) :
    hostWrite loc v s = .next t := by
  simp only [hostWrite, if_neg hc, h]

theorem hostRead_of_hostLoad {s : State} {loc : Loc} {v : Nat} (h : s.hostLoad loc = .ok v) :
    hostRead loc s = .next { s with replies := { loc := loc, value := v } :: s.replies } := by
  simp only [hostRead, h]

theorem exists_ok_of_isOk {α : Type} {x : Except Refusal α} (h : x.isOk = true) : ∃ v, x = .ok v := by
  cases x with
  | ok v => exact ⟨v, rfl⟩
  | error r => cases h

/-- There being no fault, an outcome is a refusal or goes on. -/
theorem exists_refused_iff (o : Host.Outcome State Fault Refusal) :
    (∃ r, o = .refused r) ↔ (nextState o).isSome = false := by
  cases o with
  | next t => simp [nextState]
  | fault f => cases f
  | refused r => simp [nextState]

theorem nextState_issueCommand_isSome (c : Word) (s : State) : (nextState (issueCommand c s)).isSome = true := by
  obtain ⟨t, h⟩ := issueCommand_answers c s
  rw [h]; rfl

/-- A write goes on exactly when it is a host action; a write to `CMD` is an issue, and no word issued is refused. -/
theorem nextState_hostWrite_isSome (loc : Loc) (v : Nat) (s : State) :
    (nextState (hostWrite loc v s)).isSome = (HostAction.write loc v).wellFormed s.cfg := by
  by_cases hc : loc = .cmd
  · subst hc
    by_cases hv : v < 2 ^ 16
    · simp only [hostWrite, fit_ok 16 _ v hv, if_pos, nextState_issueCommand_isSome]
      exact (decide_eq_true hv).symm
    · simp only [hostWrite, fit_error 16 _ v hv, if_pos]
      exact (decide_eq_false hv).symm
  · rw [← s.hostStore_isOk v hc]
    simp only [hostWrite, if_neg hc]
    cases s.hostStore loc v <;> rfl

theorem nextState_hostRead_isSome (loc : Loc) (s : State) :
    (nextState (hostRead loc s)).isSome = (HostAction.read loc).wellFormed s.cfg := by
  rw [← s.hostLoad_isOk loc, hostRead]
  cases s.hostLoad loc <;> rfl

theorem nextState_perform_isSome (a : HostAction) (s : State) : (nextState (perform a s)).isSome = a.wellFormed s.cfg := by
  cases a with
  | write loc v => exact nextState_hostWrite_isSome loc v s
  | issue c => exact nextState_issueCommand_isSome c s
  | read loc => exact nextState_hostRead_isSome loc s
  | reset => rfl

/-! ## The statements -/

/-- Settles O8: what a host action does goes on exactly when the action is well-formed. -/
theorem onlyNonActionsAreRefused : Obligations.OnlyNonActionsAreRefused := by
  intro s a rest ha
  rw [step_of_actions ha, exists_refused_iff, nextState_perform_isSome]

/-- Settles O6, by the value and the frame of the host's store. -/
theorem hostWriteStoresOnlyItsPlace : Obligations.HostWriteStoresOnlyItsPlace := by
  intro s loc v rest ha hc hwf
  obtain ⟨t, ht⟩ := exists_ok_of_isOk ((State.hostStore_isOk { s with actions := rest } v hc).trans hwf)
  refine ⟨t, ?_, State.hostLoad_hostStore ht hc, State.hostStore_sameOutside ht⟩
  rw [step_of_actions ha]
  exact hostWrite_of_hostStore hc ht

/-- Settles O7: what a place reads as does not depend on the host's later actions. -/
theorem hostReadChangesNothing : Obligations.HostReadChangesNothing := by
  intro s loc rest ha hwf
  obtain ⟨v, hv⟩ := exists_ok_of_isOk ((s.hostLoad_isOk loc).trans hwf)
  have hv' : { s with actions := rest }.hostLoad loc = .ok v := hv
  exact ⟨v, hv, (step_of_actions ha).trans (hostRead_of_hostLoad hv')⟩

end Sys2Proof.Machine
end

section
/-! PROOF. `STAT` and `ERR` stay legal (10_state.md R28, R26), and the reset state is a legal one to begin with (R40). -/

namespace Sys2Proof.Machine

/-! ## The invariant of STAT and ERR -/

theorem StatusInv.of_eq {s t : State} (h : StatusInv s) (hstat : t.stat = s.stat) (herr : t.err = s.err) : StatusInv t :=
  ⟨hstat ▸ h.reservedZero, herr ▸ h.errKnown⟩

theorem statusInv_reset : StatusInv State.reset := ⟨fun _ _ => BitVec.getLsbD_zero, by decide⟩

theorem statusInv_raise {s : State} (h : StatusInv s) (e : ErrorKind) : StatusInv (s.raise e) :=
  ⟨h.reservedZero, e.code_le⟩

/-- No command writes bits 7:2 of `STAT`: the key scheduler writes the two valid bits, and no other command writes `STAT`. -/
theorem Succeeds.stat_reserved {i : Instr} {s u : State} (h : Succeeds s i u) (k : Nat) (hk : 2 ≤ k) :
    u.stat.getLsbD k = s.stat.getLsbD k := by
  cases h with
  | kexpe | new =>
    exact (withDkv_reserved _ _ k hk).trans (withEkv_reserved _ _ k hk)
  | kexpd => exact withDkv_reserved _ _ k hk
  | _ => rfl

theorem exec_keeps_statusInv {i : Instr} {s t : State} (hs : StatusInv s) (h : exec i s = .next t) : StatusInv t := by
  rcases exec_cases h with ⟨e, -, rfl⟩ | ⟨u, hu, rfl⟩
  · exact statusInv_raise hs e
  · exact ⟨fun k hk => (hu.stat_reserved k hk).trans (hs.reservedZero k hk), by rw [State.done_err]; decide⟩

/-- The host has no right to write `STAT` or `ERR` (10_state.md R38). -/
theorem hostStore_keeps_statusInv {s t : State} {loc : Loc} {v : Nat} (hs : StatusInv s) (h : s.hostStore loc v = .ok t) :
    StatusInv t := by
  have hframe := State.hostStore_sameOutside h
  exact hs.of_eq (hframe.stat_eq (by rintro rfl; cases h)) (hframe.err_eq (by rintro rfl; cases h))

/-- Settles O60, event by event: only a command and the reset write `STAT` or `ERR`. -/
theorem stepKeepsStatusLegal : Obligations.StepKeepsStatusLegal := by
  intro s t hs h
  rcases step_cases h with ⟨-, rfl⟩ | ⟨a, rest, -, hevent⟩
  · exact hs
  · have hs' : StatusInv { s with actions := rest } := hs.of_eq rfl rfl
    rcases hevent with ⟨loc, v, -, -, hstore⟩ | ⟨loc, v, -, -, rfl⟩ | ⟨-, rfl⟩ | rfl | ⟨i, hexec⟩
    · exact hostStore_keeps_statusInv hs' hstore
    · exact hs.of_eq rfl rfl
    · exact statusInv_reset.of_eq rfl rfl
    · exact statusInv_raise hs' _
    · exact exec_keeps_statusInv hs' hexec

/-! ## The reset state -/

theorem memoryInv_reset : MemoryInv State.reset :=
  ⟨State.reset_memory_wf.1, State.reset_memory_wf.2, by simp, by simp⟩

/-- No table is valid after reset, so there is nothing for them to agree with. -/
theorem keyInv_reset : KeyInv State.reset := by
  have hekv : State.reset.ekv = false := rfl
  have hdkv : State.reset.dkv = false := rfl
  exact ⟨by simp [hdkv], by simp [hekv], by simp [hdkv]⟩

theorem numberedRegmap_injective : Config.numberedRegmap.injective := by
  intro i j h
  simpa [Config.numberedRegmap, Fin.ext_iff] using h

/-- Settles O57, invariant by invariant, and with the names of the bus map numbered one by one. -/
theorem resetMeetsTheInvariants : Obligations.ResetMeetsTheInvariants :=
  ⟨memoryInv_reset, statusInv_reset, keyInv_reset, by decide, numberedRegmap_injective⟩

/-- Settles O9: no offset of `KIN` or `M` is listed after reset, so each byte is its free one. -/
theorem resetValues : Obligations.ResetValues := by
  refine ⟨rfl, rfl, rfl, rfl, rfl, rfl, rfl, fun i => ?_, fun i => ?_, fun i => ?_, rfl, rfl, rfl, rfl, rfl, rfl,
    fun i => ?_, fun a => ?_⟩
  · simp
  · simp
  · simp
  · exact Memory.read_nil _ i
  · exact Memory.read_nil _ a

end Sys2Proof.Machine
end

section
/-! PROOF. Both buffers stay canonical and inside their spaces (20_memory.md R60, R69). A write of a range that ends inside a
buffer keeps both; that each writer's range does so is the capacity test of a command or the shape test of a host store. -/

namespace Sys2Proof.Machine

/-- Writing a range that ends inside a buffer's space forms no offset outside it (20_memory.md R69). -/
theorem Memory.writeRange_bound {b : Memory} {bound a : Nat} {bs : List Byte} (hb : ∀ x ∈ b, x.1 < bound)
    (hcap : a + bs.length ≤ bound) : ∀ x ∈ Memory.writeRange b a bs, x.1 < bound := by
  intro x hx
  rcases Memory.mem_writeRange b a bs x hx with ⟨-, hlt⟩ | hold
  · omega
  · exact hb x hold

/-! ## The invariant of the buffers -/

theorem MemoryInv.of_eq {s t : State} (h : MemoryInv s) (hm : t.m = s.m) (hkin : t.kin = s.kin) (hcfg : t.cfg = s.cfg) :
    MemoryInv t :=
  ⟨hm ▸ h.messageSorted, hkin ▸ h.keySorted, hm ▸ hcfg ▸ h.messageBound, hkin ▸ h.keyBound⟩

theorem MemoryInv.writeMessage {s : State} (h : MemoryInv s) {a : Nat} {bs : List Byte}
    (hcap : a + bs.length ≤ s.cfg.mcap) : MemoryInv (s.writeMessage a bs) :=
  ⟨Memory.writeRange_wf s.m a bs h.messageSorted, h.keySorted, Memory.writeRange_bound h.messageBound hcap, h.keyBound⟩

/-- One byte is a range of length 1. -/
theorem MemoryInv.writeMessageByte {s : State} (h : MemoryInv s) {i : Nat} (hi : i < s.cfg.mcap) (b : Byte) :
    MemoryInv { s with m := Memory.write s.m i b } :=
  h.writeMessage (bs := [b]) hi

theorem MemoryInv.writeKeyByte {s : State} (h : MemoryInv s) {i : Nat} (hi : i < 16) (b : Byte) :
    MemoryInv { s with kin := Memory.write s.kin i b } :=
  ⟨h.messageSorted, Memory.write_wf s.kin i b h.keySorted, h.messageBound,
    Memory.writeRange_bound (bs := [b]) h.keyBound hi⟩

/-! ## What keeps it -/

/-- PAD, ENC and DEC write `M`, each a range its capacity test admits; no other command writes a buffer. -/
theorem Succeeds.keeps_memoryInv {i : Instr} {s u : State} (hs : MemoryInv s) (h : Succeeds s i u) : MemoryInv u := by
  cases h with
  | pad hcap =>
    have hrange := hs.writeMessage (a := s.mlen.toNat) (bs := padding (padCount s.mlen.toNat)) (by rwa [padding_length])
    exact hrange.of_eq rfl rfl rfl
  | enc _ h0 hcap =>
    have hrange := hs.writeMessage (a := 0) (bs := encryptBytes s.ek s.message)
      (by rwa [encryptBytes_message_length h0, Nat.zero_add])
    exact hrange.of_eq rfl rfl rfl
  | dec _ hcap _ h8 =>
    have hlen : (transformBlocks s.dk s.message).length = s.mlen.toNat := by
      rw [transformBlocks_length s.dk _ (by rwa [s.message_length]), s.message_length]
    have hrange := hs.writeMessage (a := 0) (bs := transformBlocks s.dk s.message) (by rwa [hlen, Nat.zero_add])
    exact hrange.of_eq rfl rfl rfl
  | _ => exact hs.of_eq rfl rfl rfl

theorem exec_keeps_memoryInv {i : Instr} {s t : State} (hs : MemoryInv s) (h : exec i s = .next t) : MemoryInv t := by
  rcases exec_cases h with ⟨e, -, rfl⟩ | ⟨u, hu, rfl⟩
  · exact hs.of_eq rfl rfl rfl
  · exact (hu.keeps_memoryInv hs).of_eq rfl rfl rfl

/-- A byte of `KIN` or `M` the host stores lies inside the shape (20_memory.md R69); the registers, `BB` and `CMD` are no part of
a buffer. -/
theorem hostStore_keeps_memoryInv {s t : State} {loc : Loc} {v : Nat} (hs : MemoryInv s) (h : s.hostStore loc v = .ok t) :
    MemoryInv t := by
  rcases State.hostStore_cases h with ⟨w, -, rfl⟩ | ⟨w, -, rfl⟩ | ⟨w, -, rfl⟩ | ⟨w, -, rfl⟩ | ⟨w, -, rfl⟩ | ⟨w, -, rfl⟩ |
    ⟨i, b, hi, -, rfl⟩ | ⟨i, b, hi, -, rfl⟩ | ⟨b, -, rfl⟩ | ⟨i, b, hi, -, rfl⟩ | ⟨w, -, rfl⟩ | ⟨-, rfl⟩
  iterate 7 exact hs.of_eq rfl rfl rfl
  · exact hs.writeKeyByte hi b
  · exact hs.of_eq rfl rfl rfl
  · exact hs.writeMessageByte hi b
  · exact hs.of_eq rfl rfl rfl
  · exact hs

/-- Both buffers are empty after a reset, so the bounds hold under the parameters it keeps (10_state.md R40). -/
theorem memoryInv_resetEvent (s : State) : MemoryInv s.resetEvent :=
  ⟨memoryInv_reset.messageSorted, memoryInv_reset.keySorted, by simp, by simp⟩

/-- Settles O58, event by event: only a host store and a command write a byte of a buffer, and the reset empties both. -/
theorem stepKeepsBuffersCanonical : Obligations.StepKeepsBuffersCanonical := by
  intro s t hs h
  rcases step_cases h with ⟨-, rfl⟩ | ⟨a, rest, -, hevent⟩
  · exact hs
  · have hs' : MemoryInv { s with actions := rest } := hs.of_eq rfl rfl rfl
    rcases hevent with ⟨loc, v, -, -, hstore⟩ | ⟨loc, v, -, -, rfl⟩ | ⟨-, rfl⟩ | rfl | ⟨i, hexec⟩
    · exact hostStore_keeps_memoryInv hs' hstore
    · exact hs.of_eq rfl rfl rfl
    · exact memoryInv_resetEvent _
    · exact hs.of_eq rfl rfl rfl
    · exact exec_keeps_memoryInv hs' hexec

end Sys2Proof.Machine
end

section
/-! PROOF. The decoder and the encoder (30_encoding.md R90 to R101). A word is its four fields, so the word of a command is told by
them (`eq_commandWord_iff`); from this the one fact about the decoder, `decode_eq_ok_iff`: a command is decoded from its own word
and from no other. Which words select a row, and which are reserved, are then facts about the words of the 17 rows. -/

namespace Sys2Proof

/-! ## A word and its fields -/

theorem eq_iff_fields_eq {c d : Word} :
    c = d ↔ fieldOp c = fieldOp d ∧ fieldZ c = fieldZ d ∧ fieldT c = fieldT d ∧ fieldR c = fieldR d := by
  constructor
  · rintro rfl
    exact ⟨rfl, rfl, rfl, rfl⟩
  · rintro ⟨hop, hz, ht, hr⟩
    simp only [← BitVec.toNat_inj, toNat_fieldOp, toNat_fieldZ, toNat_fieldT, toNat_fieldR] at hop hz ht hr
    apply BitVec.eq_of_toNat_eq
    omega

theorem eq_commandWord_iff {c : Word} {op : BitVec 8} {t : BitVec 1} {r : BitVec 3} :
    c = commandWord op t r ↔ fieldOp c = op ∧ fieldZ c = 0 ∧ fieldT c = t ∧ fieldR c = r := by
  rw [eq_iff_fields_eq, fieldOp_commandWord, fieldZ_commandWord, fieldT_commandWord, fieldR_commandWord]

/-- A mask selects a field when its bits there are ones and hides it when they are zeros (30_encoding.md R92). -/
theorem and_eq_iff_fields {c mask d : Word} : c &&& mask = d ↔
    fieldOp c &&& fieldOp mask = fieldOp d ∧ fieldZ c &&& fieldZ mask = fieldZ d ∧
    fieldT c &&& fieldT mask = fieldT d ∧ fieldR c &&& fieldR mask = fieldR d := by
  rw [eq_iff_fields_eq]
  simp only [fieldOp, fieldZ, fieldT, fieldR, BitVec.extractLsb'_and]

/-- The mask that hides bit 3, of the two rows of a CT command. -/
theorem and_maskCT_iff {c : Word} {op : BitVec 8} :
    c &&& 0xFFF7 = commandWord op 0 0 ↔ fieldOp c = op ∧ fieldZ c = 0 ∧ fieldR c = 0 := by
  have hop : fieldOp 0xFFF7 = BitVec.allOnes 8 := rfl
  have hz : fieldZ 0xFFF7 = BitVec.allOnes 4 := rfl
  have ht : fieldT 0xFFF7 = 0#1 := rfl
  have hr : fieldR 0xFFF7 = BitVec.allOnes 3 := rfl
  rw [and_eq_iff_fields, hop, hz, ht, hr, BitVec.and_allOnes, BitVec.and_allOnes, BitVec.and_allOnes]
  simp

/-- The mask that hides bits 3:0, of the sixteen rows of ROUND. -/
theorem and_maskCR_iff {c : Word} {op : BitVec 8} :
    c &&& 0xFFF0 = commandWord op 0 0 ↔ fieldOp c = op ∧ fieldZ c = 0 := by
  have hop : fieldOp 0xFFF0 = BitVec.allOnes 8 := rfl
  have hz : fieldZ 0xFFF0 = BitVec.allOnes 4 := rfl
  have ht : fieldT 0xFFF0 = 0#1 := rfl
  have hr : fieldR 0xFFF0 = 0#3 := rfl
  rw [and_eq_iff_fields, hop, hz, ht, hr, BitVec.and_allOnes, BitVec.and_allOnes]
  simp

/-- Bits 7:0 are the fields `z`, `t` and `r`. -/
theorem lowByte_eq_zero_iff {c : Word} : c.extractLsb' 0 8 = 0#8 ↔ fieldZ c = 0 ∧ fieldT c = 0 ∧ fieldR c = 0 := by
  simp only [← BitVec.toNat_inj, BitVec.extractLsb'_toNat, toNat_fieldZ, toNat_fieldT, toNat_fieldR, Nat.shiftRight_zero,
    BitVec.ofNat_eq_ofNat, BitVec.toNat_zero]
  omega

/-! ## Decode inverts encode -/

@[simp] theorem decodeC0_commandWord (op : BitVec 8) (i : Instr) : decodeC0 (commandWord op 0#1 0#3) i = .ok i := by
  simp [decodeC0]

@[simp] theorem decodeCT_commandWord_zero (op : BitVec 8) (e d : Instr) : decodeCT (commandWord op 0#1 0#3) e d = .ok e := by
  simp [decodeCT]

@[simp] theorem decodeCT_commandWord_one (op : BitVec 8) (e d : Instr) : decodeCT (commandWord op 1#1 0#3) e d = .ok d := by
  simp [decodeCT]

@[simp] theorem decodeCR_commandWord_zero (op : BitVec 8) (r : Fin 8) (e d : Fin 8 → Instr) :
    decodeCR (commandWord op 0#1 (BitVec.ofFin r)) e d = .ok (e r) := by
  simp [decodeCR]

@[simp] theorem decodeCR_commandWord_one (op : BitVec 8) (r : Fin 8) (e d : Fin 8 → Instr) :
    decodeCR (commandWord op 1#1 (BitVec.ofFin r)) e d = .ok (d r) := by
  simp [decodeCR]

/-- The opcode of a command's word chooses its format, which reads the command back from `t` and `r`. -/
theorem decode_encode (i : Instr) : decode (encode i) = .ok i := by
  cases i <;> simp [encode, decode]

/-- Settles O3, format by format: the fields of a command's word are the ones its format tests. -/
theorem decodeInvertsEncode : Obligations.DecodeInvertsEncode := decode_encode

theorem encode_injective : Function.Injective encode := by
  intro i j h
  have hij : Except.ok i = Except.ok j := (decode_encode i).symm.trans ((congrArg decode h).trans (decode_encode j))
  exact Except.ok.inj hij

/-! ## A command is decoded from its own word only -/

theorem eq_encode_of_decodeC0 {c : Word} {op : BitVec 8} {i j : Instr} (hz : fieldZ c = 0) (hop : fieldOp c = op)
    (hi : encode i = commandWord op 0 0) (h : decodeC0 c i = .ok j) : c = encode j := by
  obtain ⟨rfl, ht, hr⟩ := decodeC0_ok h
  exact (eq_commandWord_iff.mpr ⟨hop, hz, ht, hr⟩).trans hi.symm

theorem eq_encode_of_decodeCT {c : Word} {op : BitVec 8} {e d j : Instr} (hz : fieldZ c = 0) (hop : fieldOp c = op)
    (he : encode e = commandWord op 0 0) (hd : encode d = commandWord op 1 0) (h : decodeCT c e d = .ok j) :
    c = encode j := by
  obtain ⟨hr, ⟨rfl, ht⟩ | ⟨rfl, ht⟩⟩ := decodeCT_ok h
  · exact (eq_commandWord_iff.mpr ⟨hop, hz, ht, hr⟩).trans he.symm
  · exact (eq_commandWord_iff.mpr ⟨hop, hz, ht, hr⟩).trans hd.symm

theorem eq_encode_of_decodeCR {c : Word} {j : Instr} (hz : fieldZ c = 0) (hop : fieldOp c = 0x40)
    (h : decodeCR c .roundE .roundD = .ok j) : c = encode j := by
  obtain ⟨rfl, ht⟩ | ⟨rfl, ht⟩ := decodeCR_ok h
  · exact eq_commandWord_iff.mpr ⟨hop, hz, ht, rfl⟩
  · exact eq_commandWord_iff.mpr ⟨hop, hz, ht, rfl⟩

theorem eq_encode_of_decode {c : Word} {i : Instr} (h : decode c = .ok i) : c = encode i := by
  unfold decode at h
  split at h
  · cases h
  · next hn =>
    have hz : fieldZ c = 0 := not_not.mp hn
    split at h
    iterate 9 next hop => exact eq_encode_of_decodeC0 hz hop rfl h
    · next hop => exact eq_encode_of_decodeCR hz hop h
    iterate 2 next hop => exact eq_encode_of_decodeCT hz hop rfl rfl h
    iterate 2 next hop => exact eq_encode_of_decodeC0 hz hop rfl h
    · cases h

theorem decode_eq_ok_iff {c : Word} {i : Instr} : decode c = .ok i ↔ c = encode i :=
  ⟨eq_encode_of_decode, fun h => h ▸ decode_encode i⟩

/-! ## The rows of the opcode map -/

theorem decode_eq_ok_iff_of_encode {c w : Word} {i : Instr} (h : encode i = w) : decode c = .ok i ↔ c = w :=
  h ▸ decode_eq_ok_iff

theorem encode_roundE (r : Fin 8) : encode (.roundE r) = 0x4000 + BitVec.ofNat 16 r.val := by
  revert r; decide

theorem encode_roundD (r : Fin 8) : encode (.roundD r) = 0x4008 + BitVec.ofNat 16 r.val := by
  revert r; decide

/-- The two words of a CT command, one for each table. -/
theorem eq_commandWord_either_iff {c : Word} {op : BitVec 8} :
    c = commandWord op 0 0 ∨ c = commandWord op 1 0 ↔ fieldOp c = op ∧ fieldZ c = 0 ∧ fieldR c = 0 := by
  rw [eq_commandWord_iff, eq_commandWord_iff]
  constructor
  · rintro (⟨hop, hz, -, hr⟩ | ⟨hop, hz, -, hr⟩) <;> exact ⟨hop, hz, hr⟩
  · rintro ⟨hop, hz, hr⟩
    exact (BitVec.eq_zero_or_eq_one (fieldT c)).imp (fun ht => ⟨hop, hz, ht, hr⟩) fun ht => ⟨hop, hz, ht, hr⟩

/-- The sixteen words of ROUND, one for each table and round number. -/
theorem exists_eq_encode_round_iff {c : Word} :
    (∃ r, c = encode (.roundE r) ∨ c = encode (.roundD r)) ↔ fieldOp c = 0x40 ∧ fieldZ c = 0 := by
  simp only [encode, eq_commandWord_iff]
  constructor
  · rintro ⟨r, ⟨hop, hz, -⟩ | ⟨hop, hz, -⟩⟩ <;> exact ⟨hop, hz⟩
  · rintro ⟨hop, hz⟩
    exact ⟨(fieldR c).toFin, (BitVec.eq_zero_or_eq_one (fieldT c)).imp (fun ht => ⟨hop, hz, ht, rfl⟩)
      fun ht => ⟨hop, hz, ht, rfl⟩⟩

/-- Settles O1: a row without a free field selects the word of its command, and a row's mask hides its free fields. -/
theorem opcodeMapSelectsByMaskAndMatch : Obligations.OpcodeMapSelectsByMaskAndMatch := by
  intro c
  have round : (∃ r, decode c = .ok (.roundE r) ∨ decode c = .ok (.roundD r)) ↔ c &&& 0xFFF0 = 0x4000 := by
    simp only [decode_eq_ok_iff]
    exact exists_eq_encode_round_iff.trans and_maskCR_iff.symm
  have table {e d : Instr} {op : BitVec 8} (he : encode e = commandWord op 0 0) (hd : encode d = commandWord op 1 0) :
      decode c = .ok e ∨ decode c = .ok d ↔ c &&& 0xFFF7 = commandWord op 0 0 := by
    rw [decode_eq_ok_iff, decode_eq_ok_iff, he, hd]
    exact eq_commandWord_either_iff.trans and_maskCT_iff.symm
  refine ⟨?_, ?_, ?_, ?_, ?_, ?_, ?_, ?_, ?_, fun r => ⟨?_, ?_⟩, ?_, ?_, ?_, ?_, ?_, ?_, round, table (op := 0x41) rfl rfl,
    table (op := 0x42) rfl rfl⟩
  case refine_10 => exact decode_eq_ok_iff_of_encode (encode_roundE r)
  case refine_11 => exact decode_eq_ok_iff_of_encode (encode_roundD r)
  all_goals exact decode_eq_ok_iff_of_encode rfl

/-- Settles O2: each of the words is the one of its command. -/
theorem writtenOutWordsDecode : Obligations.WrittenOutWordsDecode :=
  ⟨decode_encode .mulmod, decode_encode .unpad, decode_encode .new, decode_encode (.roundE 0), decode_encode (.roundD 7),
    decode_encode .outxfD, decode_encode .xformE, decode_encode .dec⟩

/-! ## Reserved words -/

/-- The opcodes of format C0 (30_encoding.md R91, R92). -/
def opcodesC0 : List (BitVec 8) :=
  [0x10#8, 0x11#8, 0x20#8, 0x21#8, 0x22#8, 0x23#8, 0x30#8, 0x31#8, 0x32#8, 0x50#8, 0x51#8]

/-- The opcodes of format CT (30_encoding.md R91, R92). -/
def opcodesCT : List (BitVec 8) := [0x41#8, 0x42#8]

/-- The opcodes of the opcode map, in its order (30_encoding.md R92). -/
def opcodes : List (BitVec 8) :=
  [0x10#8, 0x11#8, 0x20#8, 0x21#8, 0x22#8, 0x23#8, 0x30#8, 0x31#8, 0x32#8, 0x40#8, 0x41#8, 0x42#8, 0x50#8, 0x51#8]

theorem exists_encode_of_mem_opcodesC0 : ∀ op ∈ opcodesC0, ∃ i, encode i = commandWord op 0 0 := by
  simp only [opcodesC0, List.forall_mem_cons]
  exact ⟨⟨.mulmod, rfl⟩, ⟨.mulinv, rfl⟩, ⟨.b2w, rfl⟩, ⟨.w2b, rfl⟩, ⟨.pad, rfl⟩, ⟨.unpad, rfl⟩, ⟨.kexpe, rfl⟩, ⟨.kexpd, rfl⟩,
    ⟨.new, rfl⟩, ⟨.enc, rfl⟩, ⟨.dec, rfl⟩, List.forall_mem_nil _⟩

theorem exists_encode_of_mem_opcodesCT :
    ∀ op ∈ opcodesCT, ∃ e d, encode e = commandWord op 0 0 ∧ encode d = commandWord op 1 0 := by
  simp only [opcodesCT, List.forall_mem_cons]
  exact ⟨⟨.outxfE, .outxfD, rfl, rfl⟩, ⟨.xformE, .xformD, rfl, rfl⟩, List.forall_mem_nil _⟩

/-- The words that select a command, format by format (30_encoding.md R91). -/
theorem exists_decode_eq_ok_iff {c : Word} : (∃ i, decode c = .ok i) ↔
    (fieldOp c ∈ opcodesC0 ∧ fieldZ c = 0 ∧ fieldT c = 0 ∧ fieldR c = 0) ∨
    (fieldOp c ∈ opcodesCT ∧ fieldZ c = 0 ∧ fieldR c = 0) ∨
    (fieldOp c = 0x40 ∧ fieldZ c = 0) := by
  simp only [decode_eq_ok_iff]
  constructor
  · rintro ⟨i, rfl⟩
    cases i <;> simp [encode, opcodesC0, opcodesCT]
  · rintro (⟨hop, hfields⟩ | ⟨hop, hfields⟩ | hfields)
    · obtain ⟨i, hi⟩ := exists_encode_of_mem_opcodesC0 _ hop
      exact ⟨i, hi ▸ eq_commandWord_iff.mpr ⟨rfl, hfields⟩⟩
    · obtain ⟨e, d, he, hd⟩ := exists_encode_of_mem_opcodesCT _ hop
      rcases eq_commandWord_either_iff.mpr ⟨rfl, hfields⟩ with h | h
      · exact ⟨e, h.trans he.symm⟩
      · exact ⟨d, h.trans hd.symm⟩
    · obtain ⟨r, h | h⟩ := exists_eq_encode_round_iff.mpr hfields
      · exact ⟨_, h⟩
      · exact ⟨_, h⟩

theorem exists_decode_eq_error_iff {c : Word} : (∃ e, decode c = .error e) ↔ ¬ ∃ i, decode c = .ok i := by
  cases decode c <;> simp

/-- The 14 opcodes are those of the three formats (30_encoding.md R92). -/
theorem mem_opcodes_iff {op : BitVec 8} : op ∈ opcodes ↔ op ∈ opcodesC0 ∨ op ∈ opcodesCT ∨ op = 0x40 := by
  have hformat : ∀ op ∈ opcodes, op ∈ opcodesC0 ∨ op ∈ opcodesCT ∨ op = 0x40 := by decide
  have hC0 : ∀ op ∈ opcodesC0, op ∈ opcodes := by decide
  have hCT : ∀ op ∈ opcodesCT, op ∈ opcodes := by decide
  constructor
  · exact hformat op
  · rintro (h | h | rfl)
    · exact hC0 op h
    · exact hCT op h
    · decide

theorem opcodesC0_disjoint : ∀ op ∈ opcodesC0, op ∉ opcodesCT ∧ op ≠ 0x40#8 := by decide

theorem opcodesCT_disjoint : ∀ op ∈ opcodesCT, op ≠ 0x40#8 := by decide

/-- A word is reserved when it has no opcode, or has one and the fields its format wants 0 are not (30_encoding.md R95). -/
theorem exists_decode_eq_error_iff_fields {c : Word} : (∃ e, decode c = .error e) ↔
    fieldOp c ∉ opcodes ∨
    (fieldOp c ∈ opcodesC0 ∧ c.extractLsb' 0 8 ≠ 0) ∨
    (fieldOp c ∈ opcodesCT ∧ (fieldZ c ≠ 0 ∨ fieldR c ≠ 0)) ∨
    (fieldOp c = 0x40 ∧ fieldZ c ≠ 0) := by
  rw [exists_decode_eq_error_iff, exists_decode_eq_ok_iff, mem_opcodes_iff, ← lowByte_eq_zero_iff]
  by_cases hC0 : fieldOp c ∈ opcodesC0
  · obtain ⟨hCT, hCR⟩ := opcodesC0_disjoint _ hC0
    simp [hC0, hCT, hCR]
  · by_cases hCT : fieldOp c ∈ opcodesCT
    · have hCR := opcodesCT_disjoint _ hCT
      simp [hC0, hCT, hCR, imp_iff_not_or]
    · simp only [hC0, hCT, false_and, false_or, not_and_or]
      tauto

/-- All commands, ROUND for each of its round numbers. -/
def allCommands : List Instr :=
  [.mulmod, .mulinv, .b2w, .w2b, .pad, .unpad, .kexpe, .kexpd, .new, .outxfE, .outxfD, .xformE, .xformD, .enc, .dec] ++
    (List.finRange 8).map .roundE ++ (List.finRange 8).map .roundD

theorem mem_allCommands (i : Instr) : i ∈ allCommands := by
  cases i <;> simp [allCommands]

theorem nodup_map_encode_allCommands : (allCommands.map encode).Nodup :=
  List.Nodup.map encode_injective (by decide)

theorem exists_decode_eq_ok_iff_mem {c : Word} : (∃ i, decode c = .ok i) ↔ c ∈ allCommands.map encode := by
  simp only [decode_eq_ok_iff, List.mem_map, mem_allCommands, true_and, eq_comm (a := c)]

end Sys2Proof
end

section
/-! PROOF. What an issued word does (30_encoding.md R95, R100; 60_exceptions.md R257): it runs the command it decodes to, or only
sets `ERR`; and so does the step whose host action it is. -/

namespace Sys2Proof.Machine

theorem issueCommand_of_decode_ok {c : Word} {i : Instr} (h : decode c = .ok i) (s : State) :
    issueCommand c s = exec i s := by
  simp only [issueCommand, h]

theorem issueCommand_of_decode_error {c : Word} {e : Reserved} (h : decode c = .error e) (s : State) :
    issueCommand c s = .next { s with err := 6 } := by
  simp only [issueCommand, h]
  rfl

theorem decode_of_decodeTableWord {nbits w : Nat} {i : Instr} (h : decodeTableWord nbits w = some i) :
    decode (tableWord nbits w) = .ok i := by
  unfold decodeTableWord at h
  split at h
  · cases h
  · cases hd : decode (tableWord nbits w) with
    | ok j => rw [hd] at h; cases h; rfl
    | error e => rw [hd] at h; cases h

theorem step_of_issue {s : State} {c : Word} {rest : List HostAction} (h : s.actions = .issue c :: rest) :
    step s = issueCommand c { s with actions := rest } := step_of_actions h

theorem step_of_no_actions {s : State} (h : s.actions = []) : step s = .next s := by
  simp only [step, nextEvent, h]

/-- Settles O4: the reserved words are those of no format's row, and the others are the words of all the commands. -/
theorem reservedWordsExactly : Obligations.ReservedWordsExactly := by
  refine ⟨fun c => exists_decode_eq_error_iff_fields,
    ⟨allCommands.map encode, nodup_map_encode_allCommands, rfl, fun c => exists_decode_eq_ok_iff_mem⟩,
    ⟨.noSuchOpcode, by decide⟩, ⟨.zNotZero, by decide⟩, ?_⟩
  rintro c s ⟨e, h⟩
  exact issueCommand_of_decode_error h s

/-- Settles O5: an issue is the host's next action, also the one `withFetchWord` puts there. -/
theorem stepRunsTheDecodedCommand : Obligations.StepRunsTheDecodedCommand := by
  refine ⟨?_, ?_, ?_, ?_⟩
  · intro s c rest i ha hd
    exact (step_of_issue ha).trans (issueCommand_of_decode_ok hd _)
  · intro s nbits w i h
    have ha : (s.withFetchWord nbits w).actions = .issue (tableWord nbits w) :: s.actions := rfl
    exact (step_of_issue ha).trans (issueCommand_of_decode_ok (decode_of_decodeTableWord h) s)
  · intro s c rest e ha hd
    exact (step_of_issue ha).trans (issueCommand_of_decode_error hd _)
  · exact fun s ha => step_of_no_actions ha

end Sys2Proof.Machine
end

section
/-! PROOF. The extended Euclidean recurrence (40_modular_arithmetic.md R126). Every pass keeps one invariant: the coefficients
multiply `a` to the remainders, and they are too small for the final one to leave the range of the correction. -/

namespace Sys2Proof.Machine

theorem prime_65537 : Nat.Prime 65537 := by norm_num

/-- The quotient and the remainder of one pass, as the coefficients use them. -/
theorem natCast_eq_div_add_mod (r0 r1 : Nat) : (r0 : Int) = r1 * (r0 / r1 : Nat) + (r0 % r1 : Nat) := by
  exact_mod_cast (Nat.div_add_mod r0 r1).symm

/-- What holds of `(r0, r1, t0, t1)` before and after every pass of the loop of R126 for `a`. `half` is what `bound` said of the
coefficient one pass earlier; it is kept because `bound` says nothing of `t0` when `r1` is 0. -/
structure EuclidInv (a r0 r1 : Nat) (t0 t1 : Int) : Prop where
  decreasing : r1 < r0
  coprime : Nat.Coprime r0 r1
  modEq0 : t0 * a ≡ r0 [ZMOD 65537]
  modEq1 : t1 * a ≡ r1 [ZMOD 65537]
  half : |t0| * 2 ≤ 65537
  bound : |t1| * r0 + |t0| * r1 ≤ 65537

theorem EuclidInv.start {a : Nat} (h0 : a ≠ 0) (ha : a < 65537) : EuclidInv a 65537 a 0 1 where
  decreasing := ha
  coprime := Nat.coprime_of_lt_prime h0 ha prime_65537
  modEq0 := by rw [zero_mul]; exact Int.modEq_iff_dvd.mpr (by simp)
  modEq1 := by rw [one_mul]
  half := by decide
  bound := by simp

theorem EuclidInv.pass {a r0 r1 : Nat} {t0 t1 : Int} (h : EuclidInv a r0 r1 t0 t1) (hr1 : r1 ≠ 0) :
    EuclidInv a r1 (r0 % r1) t1 (t0 - (r0 / r1 : Nat) * t1) where
  decreasing := Nat.mod_lt r0 (Nat.pos_of_ne_zero hr1)
  coprime := by rw [Nat.coprime_iff_gcd_eq_one, Nat.gcd_comm, ← Nat.gcd_rec, Nat.gcd_comm]; exact h.coprime
  modEq0 := h.modEq1
  modEq1 := by
    calc (t0 - (r0 / r1 : Nat) * t1) * a = t0 * a - (r0 / r1 : Nat) * (t1 * a) := by ring
      _ ≡ r0 - (r0 / r1 : Nat) * r1 [ZMOD 65537] := h.modEq0.sub (h.modEq1.mul_left _)
      _ = (r0 % r1 : Nat) := by rw [natCast_eq_div_add_mod r0 r1]; ring
  half := by
    have hr0 : (2 : Int) ≤ r0 := by have := h.decreasing; omega
    have hpos : 0 ≤ |t0| * (r1 : Int) := by positivity
    have hbound := h.bound
    have := mul_le_mul_of_nonneg_left hr0 (abs_nonneg t1)
    omega
  bound := by
    have htri : |t0 - (r0 / r1 : Nat) * t1| ≤ |t0| + (r0 / r1 : Nat) * |t1| := by
      simpa only [abs_mul, Nat.abs_cast] using abs_sub t0 ((r0 / r1 : Nat) * t1)
    calc |t0 - (r0 / r1 : Nat) * t1| * r1 + |t1| * (r0 % r1 : Nat)
        ≤ (|t0| + (r0 / r1 : Nat) * |t1|) * r1 + |t1| * (r0 % r1 : Nat) := by gcongr
      _ = |t1| * r0 + |t0| * r1 := by rw [natCast_eq_div_add_mod r0 r1]; ring
      _ ≤ 65537 := h.bound

/-- What the loop of R126 ends with for `a`. -/
def IsSmallInverse (a : Nat) (t : Int) : Prop := |t| * 2 ≤ 65537 ∧ t * a ≡ 1 [ZMOD 65537]

theorem EuclidInv.isSmallInverse {a r0 : Nat} {t0 t1 : Int} (h : EuclidInv a r0 0 t0 t1) : IsSmallInverse a t0 := by
  have hr0 : r0 = 1 := (Nat.coprime_zero_right r0).mp h.coprime
  exact ⟨h.half, by simpa [hr0] using h.modEq0⟩

/-- The remainders strictly decrease, so the loop ends before its fuel does. -/
theorem EuclidInv.isSmallInverse_euclidLoop {a fuel r0 r1 : Nat} {t0 t1 : Int} (h : EuclidInv a r0 r1 t0 t1)
    (hfuel : r1 ≤ fuel) : IsSmallInverse a (euclidLoop fuel r0 r1 t0 t1) := by
  induction fuel generalizing r0 r1 t0 t1 with
  | zero =>
    obtain rfl : r1 = 0 := Nat.le_zero.mp hfuel
    exact h.isSmallInverse
  | succ fuel ih =>
    by_cases hr1 : r1 = 0
    · subst hr1
      rw [euclidLoop_end]
      exact h.isSmallInverse
    · have hnext := h.pass hr1
      rw [euclidLoop_pass fuel r0 r1 t0 t1 hr1]
      exact ih hnext (Nat.le_of_lt_succ (hnext.decreasing.trans_le hfuel))

theorem euclidCoefficient_spec {a : Nat} (h0 : a ≠ 0) (ha : a < 65537) :
    0 ≤ euclidCoefficient a ∧ euclidCoefficient a < 65537 ∧ euclidCoefficient a * a % 65537 = 1 := by
  obtain ⟨hsmall, hinv⟩ := (EuclidInv.start h0 ha).isSmallInverse_euclidLoop le_rfl
  have hrange := abs_le.mp (show |euclidLoop a 65537 a 0 1| ≤ 32768 by omega)
  simp only [euclidCoefficient]
  split_ifs
  · refine ⟨by omega, by omega, ?_⟩
    rw [add_mul, Int.add_mul_emod_self_left]
    exact hinv
  · exact ⟨by omega, by omega, hinv⟩

/-- Settles O15: the coefficient multiplies `a` to 1, so it is none of 0, 1 and 65536, which multiply `a` to 0, `a` and `-a`. -/
theorem euclidCoefficientInverts : Obligations.EuclidCoefficientInverts := by
  intro a h2 ha
  obtain ⟨hnonneg, hlt, hinv⟩ := euclidCoefficient_spec (a := a) (by omega) (by omega)
  have h0 : euclidCoefficient a ≠ 0 := fun h => by rw [h] at hinv; omega
  have h1 : euclidCoefficient a ≠ 1 := fun h => by rw [h] at hinv; omega
  have h65536 : euclidCoefficient a ≠ 65536 := fun h => by rw [h] at hinv; omega
  exact ⟨by omega, by omega, hinv⟩

/-- The inverse loses nothing in its word (R126). -/
theorem lift_euclidInverse {a : Word} (h0 : a ≠ 0) (h1 : a ≠ 1) :
    (lift (euclidInverse a) : Int) = euclidCoefficient a.toNat := by
  have hne0 : a.toNat ≠ 0 := fun h => h0 (BitVec.eq_of_toNat_eq h)
  have hne1 : a.toNat ≠ 1 := fun h => h1 (BitVec.eq_of_toNat_eq h)
  obtain ⟨hlow, hhigh, -⟩ := euclidCoefficientInverts a.toNat (by omega) (by have := a.isLt; omega)
  rw [euclidInverse, lift_low16 _ (by omega) (by omega), Int.toNat_of_nonneg (by omega)]

end Sys2Proof.Machine
end

section
/-! PROOF. Multiplication modulo 65537 (40_modular_arithmetic.md R124 to R131). A word is told by the residue it stands for, and
residues multiply, so the laws of `mulMod` are those of the ring of residues. -/

namespace Sys2Proof.Machine

/-! ## The residue of a word -/

/-- The residue modulo 65537 a word stands for under multiplication (R120). -/
def residue (w : Word) : ZMod 65537 := (lift w : ZMod 65537)

theorem residue_zero : residue 0 = -1 := rfl

theorem residue_one : residue 1 = 1 := Nat.cast_one

theorem residue_injective : Function.Injective residue := by
  intro a b h
  have hmod : lift a % 65537 = lift b % 65537 := (ZMod.natCast_eq_natCast_iff' _ _ _).mp h
  apply lift_injective
  have ha := lift_le a
  have hb := lift_le b
  omega

theorem coprime_lift (w : Word) : Nat.Coprime (lift w) 65537 := by
  have hpos := lift_pos w
  have hle := lift_le w
  exact (Nat.coprime_of_lt_prime (by omega) (by omega) prime_65537).symm

theorem lift_mul_lift_mod_pos (a b : Word) : 1 ≤ lift a * lift b % 65537 := by
  have hcop : Nat.Coprime (lift a * lift b) 65537 := (coprime_lift a).mul_left (coprime_lift b)
  have hdvd : ¬ 65537 ∣ lift a * lift b := (prime_65537.coprime_iff_not_dvd).mp hcop.symm
  omega

/-- The result word loses nothing of the reduced product (R124). -/
theorem lift_mulMod (a b : Word) : lift (mulMod a b) = lift a * lift b % 65537 :=
  lift_low16 _ (lift_mul_lift_mod_pos a b) (by omega)

@[simp] theorem residue_mulMod (a b : Word) : residue (mulMod a b) = residue a * residue b := by
  simp only [residue, lift_mulMod, ZMod.natCast_mod, Nat.cast_mul]

/-! ## The group laws -/

theorem mulMod_comm (a b : Word) : mulMod a b = mulMod b a :=
  residue_injective (by simp only [residue_mulMod, mul_comm])

theorem mulMod_assoc (a b c : Word) : mulMod (mulMod a b) c = mulMod a (mulMod b c) :=
  residue_injective (by simp only [residue_mulMod, mul_assoc])

theorem mulMod_one (a : Word) : mulMod a 1 = a :=
  residue_injective (by rw [residue_mulMod, residue_one, mul_one])

/-- The word 0 stands for `65536 ≡ -1` (R130). -/
theorem mulMod_zero (a : Word) : mulMod a 0 = low16 (65537 - lift a) := by
  have hpos := lift_pos a
  have hle := lift_le a
  rw [mulMod, lift_zero]
  congr 1
  omega

theorem mulInverse_zero : mulInverse 0 = 0 := rfl

theorem mulInverse_one : mulInverse 1 = 1 := rfl

theorem mulInverse_of_ne {a : Word} (h0 : a ≠ 0) (h1 : a ≠ 1) : mulInverse a = euclidInverse a := by
  simp only [mulInverse, if_neg h0, if_neg h1]

theorem residue_mul_residue_mulInverse (a : Word) : residue a * residue (mulInverse a) = 1 := by
  by_cases h0 : a = 0
  · rw [h0, mulInverse_zero, residue_zero, neg_one_mul, neg_neg]
  by_cases h1 : a = 1
  · rw [h1, mulInverse_one, residue_one, one_mul]
  have hne : a.toNat ≠ 0 := fun h => h0 (BitVec.eq_of_toNat_eq h)
  have hlt := a.isLt
  obtain ⟨-, -, hinv⟩ := euclidCoefficient_spec hne (by omega)
  have hmod : lift a * lift (mulInverse a) % 65537 = 1 % 65537 := by
    rw [← lift_euclidInverse h0 h1, ← lift_of_ne_zero h0, ← mulInverse_of_ne h0 h1, mul_comm] at hinv
    exact_mod_cast hinv
  have hcast := (ZMod.natCast_eq_natCast_iff' _ 1 65537).mpr hmod
  rwa [Nat.cast_mul, Nat.cast_one] at hcast

/-- The inverse law on all words (R128). -/
@[simp] theorem mulMod_mulInverse (a : Word) : mulMod a (mulInverse a) = 1 :=
  residue_injective (by rw [residue_mulMod, residue_mul_residue_mulInverse, residue_one])

@[simp] theorem mulMod_mulMod_mulInverse (a b : Word) : mulMod (mulMod a b) (mulInverse b) = a := by
  rw [mulMod_assoc, mulMod_mulInverse, mulMod_one]

@[simp] theorem mulMod_mulInverse_mulMod (a b : Word) : mulMod (mulMod a (mulInverse b)) b = a := by
  rw [mulMod_assoc, mulMod_comm (mulInverse b), mulMod_mulInverse, mulMod_one]

/-- A word has one inverse only (R127). -/
theorem mulMod_eq_one_iff {a w : Word} : mulMod a w = 1 ↔ w = mulInverse a := by
  constructor
  · intro h
    calc w = mulMod (mulMod w a) (mulInverse a) := (mulMod_mulMod_mulInverse w a).symm
      _ = mulMod 1 (mulInverse a) := by rw [mulMod_comm w, h]
      _ = mulInverse a := by rw [mulMod_comm, mulMod_one]
  · rintro rfl
    exact mulMod_mulInverse a

theorem mulInverse_involutive : Function.Involutive mulInverse := fun a =>
  (mulMod_eq_one_iff.mp (by rw [mulMod_comm, mulMod_mulInverse])).symm

@[simp] theorem mulInverse_mulInverse (a : Word) : mulInverse (mulInverse a) = a := mulInverse_involutive a

theorem mulMod_bijective (b : Word) : Function.Bijective fun a => mulMod a b :=
  Function.bijective_iff_has_inverse.mpr
    ⟨fun a => mulMod a (mulInverse b), fun a => mulMod_mulMod_mulInverse a b, fun a => mulMod_mulInverse_mulMod a b⟩

/-- Settles O12: the laws of a group, on the residues of the words. -/
theorem mulModLaws : Obligations.MulModLaws :=
  ⟨mulMod_comm, mulMod_assoc, mulMod_one, mulMod_zero, rfl,
    fun a b => ⟨lift_mul_lift_mod_pos a b, by omega, rfl, lift_mulMod a b⟩,
    mulMod_bijective, fun a b => ⟨mulMod_mulMod_mulInverse a b, mulMod_mulInverse_mulMod a b⟩, rfl, rfl⟩

/-- Settles O14: the inverse is unique, so the inverse of the inverse is the word itself. -/
theorem inverseLaw : Obligations.InverseLaw :=
  ⟨mulMod_mulInverse, mulInverse_zero, mulInverse_one, mulInverse_mulInverse, mulInverse_involutive.bijective, coprime_lift⟩

/-! ## The method with a 32-bit product -/

/-- `65536 ≡ -1`, so the high half of a product counts against its low half (R131). -/
theorem low16_mod_eq_halves {p : Nat} (hp : p < 2 ^ 32) :
    low16 (p % 65537) = BitVec.ofInt 16 (((p % 65536 : Nat) : Int) - (p / 65536 : Nat) +
      if p % 65536 < p / 65536 then 1 else 0) := by
  apply BitVec.eq_of_toNat_eq
  rw [toNat_low16, BitVec.toNat_ofInt]
  by_cases hborrow : p % 65536 < p / 65536
  · have hmod : p % 65537 = p % 65536 + 65537 - p / 65536 := by omega
    simp only [hborrow, if_true, hmod, Nat.reducePow]
    omega
  · have hmod : p % 65537 = p % 65536 - p / 65536 := by omega
    simp only [hborrow, if_false, hmod, Nat.reducePow]
    omega

/-- The product of two words needs 32 bits only, as neither is taken for 65536 (R131). -/
theorem toNat_mul_toNat_lt (a b : Word) : a.toNat * b.toNat < 2 ^ 32 :=
  calc a.toNat * b.toNat < 2 ^ 16 * 2 ^ 16 := Nat.mul_lt_mul'' a.isLt b.isLt
    _ = 2 ^ 32 := by norm_num

theorem mulMod_eq_mulMod32 (a b : Word) : mulMod a b = Spec.mulMod32 a b := by
  unfold Spec.mulMod32
  split_ifs with ha hb
  · rw [ha, mulMod_comm, mulMod_zero, low16]
  · rw [hb, mulMod_zero, low16]
  · rw [mulMod, lift_of_ne_zero ha, lift_of_ne_zero hb]
    exact low16_mod_eq_halves (toNat_mul_toNat_lt a b)

/-- Settles O13: a zero operand stands for -1, and any other product is reduced by its halves. -/
theorem mulModIsTheThirtyTwoBitMethod : Obligations.MulModIsTheThirtyTwoBitMethod :=
  fun a b => ⟨mulMod_eq_mulMod32 a b, toNat_mul_toNat_lt a b⟩

/-! ## The commands -/

theorem exec_mulmod (s : State) : exec .mulmod s = .next { s with res := mulMod s.opa s.opb, err := 0 } := rfl

theorem exec_mulinv (s : State) : exec .mulinv s = .next { s with res := mulInverse s.opa, err := 0 } := rfl

/-- Settles O11, by the definition of `mulMod`. -/
theorem mulmodWritesTheProduct : Obligations.MulmodWritesTheProduct :=
  ⟨rfl, exec_mulmod⟩

/-- Settles O16: the inverse is the one word whose product with `OPA` is 1. -/
theorem mulinvWritesTheInverse : Obligations.MulinvWritesTheInverse :=
  ⟨rfl, fun s => ⟨mulInverse s.opa, exec_mulinv s, rfl, mulMod_mulInverse s.opa, fun _ => mulMod_eq_one_iff.mp⟩⟩

/-! ## The additive operations -/

theorem add16_comm (a b : Word) : add16 a b = add16 b a := BitVec.add_comm a b

theorem add16_assoc (a b c : Word) : add16 (add16 a b) c = add16 a (add16 b c) := BitVec.add_assoc a b c

theorem add16_zero (a : Word) : add16 a 0 = a := BitVec.add_zero a

theorem toNat_neg16 (a : Word) : (neg16 a).toNat = (65536 - a.toNat) % 65536 := BitVec.toNat_neg a

theorem getLsbD_xor16 (a b : Word) (i : Nat) : (xor16 a b).getLsbD i = (a.getLsbD i).xor (b.getLsbD i) := BitVec.getLsbD_xor

theorem xor16_comm (a b : Word) : xor16 a b = xor16 b a := BitVec.xor_comm a b

theorem xor16_assoc (a b c : Word) : xor16 (xor16 a b) c = xor16 a (xor16 b c) := BitVec.xor_assoc a b c

theorem xor16_zero (a : Word) : xor16 a 0 = a := BitVec.xor_zero

/-- Settles O17: the operations are those of `BitVec 16`. -/
theorem additiveLaws : Obligations.AdditiveLaws :=
  ⟨toNat_add16, add16_comm, add16_assoc, add16_zero, toNat_neg16, add16_neg16, neg16_neg16, getLsbD_xor16, xor16_comm,
    xor16_assoc, xor16_zero, xor16_self⟩

end Sys2Proof.Machine
end

section
/-! PROOF. Bytes and words (41_codec.md R140 to R145): each byte of a pair is one half of its word, so the codec's two functions
undo each other, and the commands B2W and W2B with them. -/

namespace Sys2Proof.Machine

/-! ## The codec at every length -/

theorem wordsToBytes_bytesToWords {n : Nat} (bs : Vector Byte (2 * n)) : wordsToBytes (bytesToWords bs) = bs := by
  refine Vector.ext fun j hj => ?_
  rw [wordsToBytes_getElem, bytesToWords_getElem _ _ (by omega), highByte_wordOfBytes, lowByte_wordOfBytes]
  split
  · exact getElem_congr_idx (by omega)
  · exact getElem_congr_idx (by omega)

theorem bytesToWords_wordsToBytes {n : Nat} (ws : Vector Word n) : bytesToWords (wordsToBytes ws) = ws := by
  refine Vector.ext fun i hi => ?_
  have heven : 2 * i % 2 = 0 ∧ 2 * i / 2 = i := by omega
  have hodd : (2 * i + 1) % 2 ≠ 0 ∧ (2 * i + 1) / 2 = i := by omega
  simp only [bytesToWords_getElem, wordsToBytes_getElem, heven, hodd, if_true, if_false, wordOfBytes_high_low]

/-- Settles O20, entry by entry; a sequence without entries is the empty one. -/
theorem bytesAndWordsAreInverse : Obligations.BytesAndWordsAreInverse :=
  ⟨fun _ => wordsToBytes_bytesToWords, fun _ => bytesToWords_wordsToBytes, rfl, rfl⟩

/-! ## A block and its bytes -/

theorem wordsOfBlock_blockOfWords (ws : Vector Word 4) : wordsOfBlock (blockOfWords ws) = ws := by
  refine Vector.ext fun i hi => ?_
  match i, hi with
  | 0, _ | 1, _ | 2, _ | 3, _ => rfl

/-- The other direction of `blockOfBytes_bytesOfBlock`. -/
@[simp] theorem bytesOfBlock_blockOfBytes (v : Vector Byte 8) : bytesOfBlock (blockOfBytes v) = v := by
  rw [bytesOfBlock, blockOfBytes, wordsOfBlock_blockOfWords, wordsToBytes_bytesToWords]

theorem wordOfBytes_eq_ofNat (b0 b1 : Byte) : wordOfBytes b0 b1 = BitVec.ofNat 16 (b0.toNat * 256 + b1.toNat) := by
  rw [← toNat_wordOfBytes, BitVec.ofNat_toNat, BitVec.setWidth_eq]

theorem highByte_eq_ofNat (w : Word) : highByte w = BitVec.ofNat 8 (w.toNat / 256) := by
  rw [← toNat_highByte, BitVec.ofNat_toNat, BitVec.setWidth_eq]

theorem lowByte_eq_ofNat (w : Word) : lowByte w = BitVec.ofNat 8 (w.toNat % 256) := by
  rw [← toNat_lowByte, BitVec.ofNat_toNat, BitVec.setWidth_eq]

/-! ## B2W and W2B -/

theorem exec_b2w (s : State) : exec .b2w s = .next (s.setBlock (blockOfBytes s.bb)).done := rfl

theorem exec_w2b (s : State) : exec .w2b s = .next (s.setBB (bytesOfBlock s.block)).done := rfl

/-- Settles O18: a word put together from two bytes is the number R144 writes. -/
theorem b2wReadsBigEndian : Obligations.B2wReadsBigEndian := by
  refine ⟨rfl, fun s => ?_⟩
  simp only [← wordOfBytes_eq_ofNat]
  exact exec_b2w s

/-- Settles O19: the halves of each word in turn; and what W2B writes B2W reads back, and the other way round. -/
theorem w2bWritesBigEndian : Obligations.W2bWritesBigEndian := by
  refine ⟨rfl, fun s => ?_, ?_, ?_⟩
  · simp only [← highByte_eq_ofNat, ← lowByte_eq_ofNat]
    exact exec_w2b s
  · rintro s t u hst htu
    cases hst
    cases htu
    simp
  · rintro s t u hst htu
    cases hst
    cases htu
    simp

end Sys2Proof.Machine
end

section
/-! PROOF. Padding (41_codec.md R146 to R152). A count is accepted exactly when the sequence ends in so many bytes of that value;
what `unpad` and `pad` are to each other follows from that and from the length that `pad` makes. -/

namespace Sys2Proof.Machine

/-! ## The padding law -/

@[simp] theorem getElem_padding {n i : Nat} (h : i < (padding n).length) : (padding n)[i] = BitVec.ofNat 8 n :=
  List.getElem_replicate _

theorem length_pad (bs : List Byte) : (pad bs).length = 8 * (bs.length / 8 + 1) := by
  rw [pad, List.length_append, padding_length, add_padCount]

/-- Settles O21: the count is in `[1, 8]` and fills the last block. -/
theorem paddingLaw : Obligations.PaddingLaw := by
  intro bs
  obtain ⟨hpos, hle⟩ := padCount_pos bs.length
  have hsum := add_padCount bs.length
  exact ⟨length_pad bs, padCount bs.length, hpos, hle, by omega, rfl⟩

/-! ## What `unpad` accepts -/

theorem toNat_ofNat_of_le_eight {n : Nat} (h : n ≤ 8) : (BitVec.ofNat 8 n).toNat = n := by
  rw [BitVec.toNat_ofNat, Nat.mod_eq_of_lt (by omega)]

theorem getLast?_append_padding (bs : List Byte) {n : Nat} (h : 1 ≤ n) :
    (bs ++ padding n).getLast? = some (BitVec.ofNat 8 n) := by
  rw [padding, List.getLast?_append, List.getLast?_replicate, if_neg (by omega), Option.some_or]

theorem padding_suffix_of_paddingCount {bs : List Byte} {n : Nat} (h : paddingCount bs = some n) : padding n <:+ bs := by
  obtain ⟨-, -, hlen⟩ := paddingCount_bounds h
  suffices hdrop : padding n = bs.drop (bs.length - n) by
    rw [hdrop]
    exact List.drop_suffix _ _
  unfold paddingCount at h
  split at h
  · cases h
  · next last _ =>
    simp only at h
    split at h
    · cases h
    · split at h
      · cases h
      · split at h
        · cases h
        · next hall =>
          cases h
          refine (List.eq_replicate_iff.mpr ⟨by rw [List.length_drop]; omega, fun b hb => ?_⟩).symm
          rw [BitVec.ofNat_toNat, BitVec.setWidth_eq]
          by_contra hne
          exact hall (List.any_eq_true.mpr ⟨b, hb, decide_eq_true hne⟩)

theorem paddingCount_append_padding (bs : List Byte) {n : Nat} (h1 : 1 ≤ n) (h8 : n ≤ 8) :
    paddingCount (bs ++ padding n) = some n := by
  have hdrop : (bs ++ padding n).drop ((bs ++ padding n).length - n) = padding n := by simp
  have hall : (padding n).any (fun b => b ≠ BitVec.ofNat 8 n) = false := by simp [padding]
  simp only [paddingCount, getLast?_append_padding bs h1, toNat_ofNat_of_le_eight h8, hdrop, hall]
  rw [if_neg (by omega), if_neg (by simp), if_neg (by simp)]

/-- The tests of R150 and R151 together: the sequence ends in `n` bytes of value `n`. -/
theorem paddingCount_eq_some_iff {bs : List Byte} {n : Nat} :
    paddingCount bs = some n ↔ 1 ≤ n ∧ n ≤ 8 ∧ padding n <:+ bs := by
  constructor
  · intro h
    obtain ⟨h1, h8, -⟩ := paddingCount_bounds h
    exact ⟨h1, h8, padding_suffix_of_paddingCount h⟩
  · rintro ⟨h1, h8, out, rfl⟩
    exact paddingCount_append_padding out h1 h8

theorem unpad_append_padding (bs : List Byte) {n : Nat} (h1 : 1 ≤ n) (h8 : n ≤ 8) : unpad (bs ++ padding n) = some bs := by
  simp [unpad, paddingCount_append_padding bs h1 h8]

theorem unpad_eq_some_iff {bs out : List Byte} : unpad bs = some out ↔ ∃ n, 1 ≤ n ∧ n ≤ 8 ∧ bs = out ++ padding n := by
  constructor
  · intro h
    obtain ⟨n, hn, -⟩ := Option.map_eq_some_iff.mp h
    obtain ⟨h1, h8, pre, rfl⟩ := paddingCount_eq_some_iff.mp hn
    rw [unpad_append_padding pre h1 h8] at h
    cases h
    exact ⟨n, h1, h8, rfl⟩
  · rintro ⟨n, h1, h8, rfl⟩
    exact unpad_append_padding out h1 h8

/-- Settles O22: `padding n` is `n` bytes of value `n`. -/
theorem unpadAcceptsExactlyPadded : Obligations.UnpadAcceptsExactlyPadded := fun _ _ => unpad_eq_some_iff

/-! ## `pad` and `unpad` -/

theorem unpad_pad (bs : List Byte) : unpad (pad bs) = some bs :=
  unpad_append_padding bs (padCount_pos _).1 (padCount_pos _).2

/-- Only one count in `[1, 8]` makes a length a multiple of 8. -/
theorem eq_padCount {len n : Nat} (h1 : 1 ≤ n) (h8 : n ≤ 8) (hblocks : (len + n) % 8 = 0) : n = padCount len := by
  unfold padCount
  omega

theorem pad_of_unpad {cs out : List Byte} (h : unpad cs = some out) (hblocks : cs.length % 8 = 0) : pad out = cs := by
  obtain ⟨n, h1, h8, rfl⟩ := unpad_eq_some_iff.mp h
  rw [List.length_append, padding_length] at hblocks
  rw [pad, ← eq_padCount h1 h8 hblocks]

/-- Settles O23: at whole blocks the count removed is the one `pad` adds; the single byte 1 is a valid padding of nothing, and
`pad` adds eight bytes to nothing. -/
theorem unpadInvertsPad : Obligations.UnpadInvertsPad :=
  ⟨unpad_pad, fun _ _ => pad_of_unpad, [1], [], by decide, by decide⟩

/-! ## The bytes of a valid padding -/

theorem padding_suffix_iff {bs : List Byte} {n : Nat} :
    padding n <:+ bs ↔ n ≤ bs.length ∧ ∀ (a : Nat) (h : a < bs.length), bs.length - n ≤ a → bs[a] = BitVec.ofNat 8 n := by
  constructor
  · rintro ⟨out, rfl⟩
    simp only [List.length_append, padding_length]
    refine ⟨by omega, fun a ha hle => ?_⟩
    rw [List.getElem_append_right (by omega), getElem_padding]
  · rintro ⟨hlen, hbytes⟩
    have hdrop : bs.drop (bs.length - n) = padding n := by
      refine List.ext_getElem (by simp; omega) fun i hi _ => ?_
      rw [List.getElem_drop, hbytes _ _ (by omega), getElem_padding]
    rw [← hdrop]
    exact List.drop_suffix _ _

/-- `Spec.ValidPadding` speaks of bytes at offsets; this is the same of the sequence of these bytes (R153). -/
theorem paddingCount_eq_some_iff_validPadding {bs : List Byte} {byte : Nat → Byte}
    (hbyte : ∀ (a : Nat) (h : a < bs.length), bs[a] = byte a) {n : Nat} :
    paddingCount bs = some n ↔ Spec.ValidPadding byte bs.length ∧ n = (byte (bs.length - 1)).toNat := by
  rw [paddingCount_eq_some_iff, padding_suffix_iff]
  constructor
  · rintro ⟨h1, h8, hlen, hbytes⟩
    have hlast : byte (bs.length - 1) = BitVec.ofNat 8 n := by
      rw [← hbyte _ (by omega), hbytes _ (by omega) (by omega)]
    have hn : (byte (bs.length - 1)).toNat = n := by rw [hlast, toNat_ofNat_of_le_eight h8]
    refine ⟨⟨by omega, by omega, by omega, by omega, fun a hle hlt => ?_⟩, hn.symm⟩
    rw [hlast, ← hbyte a hlt, hbytes a hlt (by omega)]
  · rintro ⟨⟨h0, h1, h8, hlen, hbytes⟩, rfl⟩
    refine ⟨h1, h8, hlen, fun a hlt hle => ?_⟩
    rw [hbyte a hlt, hbytes a hle hlt, BitVec.ofNat_toNat, BitVec.setWidth_eq]

end Sys2Proof.Machine
end

section
/-! PROOF. PAD and UNPAD (41_codec.md R149, R153): the message after a command that changes its end is the old message, longer
or shorter. -/

namespace Sys2Proof.Machine

/-! ## The message and its end -/

theorem Memory.readRange_append (free : Nat → Byte) (b : Memory) (a n k : Nat) :
    Memory.readRange free b a (n + k) = Memory.readRange free b a n ++ Memory.readRange free b (a + n) k := by
  induction n generalizing a with
  | zero => rw [Nat.zero_add]; rfl
  | succ n ih =>
    have hshift : a + 1 + n = a + (n + 1) := by omega
    rw [Nat.add_right_comm, Memory.readRange, Memory.readRange, ih, hshift, List.cons_append]

theorem State.message_append (s : State) (bs : List Byte) (h : s.mlen.toNat + bs.length < 2 ^ 32) :
    ((s.writeMessage s.mlen.toNat bs).setMlen (s.mlen.toNat + bs.length)).message = s.message ++ bs := by
  have hmlen : (BitVec.ofNat 32 (s.mlen.toNat + bs.length)).toNat = s.mlen.toNat + bs.length := by
    rw [BitVec.toNat_ofNat, Nat.mod_eq_of_lt h]
  rw [State.message, State.setMlen_mlen, hmlen, Memory.readRange_append, Nat.zero_add]
  congr 1
  · exact Memory.readRange_congr _ _ _ _ _ _ fun k _ hk => s.messageByte_writeMessage_outside _ bs k (.inl (by omega))
  · exact Memory.readRange_writeRange _ _ _ _

theorem State.message_setMlen_of_le (s : State) {n : Nat} (h : n ≤ s.mlen.toNat) :
    (s.setMlen n).message = s.message.take n := by
  have hmlen : (BitVec.ofNat 32 n).toNat = n := by
    rw [BitVec.toNat_ofNat, Nat.mod_eq_of_lt (by omega)]
  obtain ⟨k, hk⟩ := Nat.exists_eq_add_of_le h
  simp only [State.message, State.setMlen_mlen, hmlen, hk, Memory.readRange_append]
  exact (List.take_left' (Memory.readRange_length _ _ _ _)).symm

theorem SameOutside.mono {W W' : Loc → Prop} {s t : State} (h : SameOutside W s t) (hsub : ∀ loc, W loc → W' loc) :
    SameOutside W' s t :=
  ⟨h.1, fun loc hn => h.2 loc (mt (hsub loc) hn)⟩

/-! ## PAD -/

/-- The state PAD leaves when the padded message fits (R149). -/
def State.padded (s : State) : State :=
  ((s.writeMessage s.mlen.toNat (padding (padCount s.mlen.toNat))).setMlen (s.mlen.toNat + padCount s.mlen.toNat)).done

theorem exec_pad_of_le {s : State} (h : s.mlen.toNat + padCount s.mlen.toNat ≤ s.cfg.mcap) :
    exec .pad s = .next s.padded := by
  rcases execPad_cases s with ⟨hlt, -⟩ | ⟨-, hpad⟩
  · omega
  · exact hpad

theorem exec_pad_of_lt {s : State} (h : s.cfg.mcap < s.mlen.toNat + padCount s.mlen.toNat) :
    exec .pad s = .next (s.raise .capacity) := by
  rcases execPad_cases s with ⟨-, hcap⟩ | ⟨hle, -⟩
  · exact hcap
  · omega

theorem State.padded_message {s : State} (h : s.mlen.toNat + padCount s.mlen.toNat < 2 ^ 32) :
    s.padded.message = pad s.message := by
  have happ := s.message_append (padding (padCount s.mlen.toNat)) (by rwa [padding_length])
  rw [padding_length] at happ
  rw [State.padded, State.done_message, happ, pad, State.message_length]

theorem State.padded_mlen {s : State} (h : s.mlen.toNat + padCount s.mlen.toNat < 2 ^ 32) :
    s.padded.mlen.toNat = s.mlen.toNat + padCount s.mlen.toNat := by
  rw [State.padded, State.done_mlen, State.setMlen_mlen, BitVec.toNat_ofNat, Nat.mod_eq_of_lt h]

theorem State.padded_messageByte (s : State) {a : Nat} (hle : s.mlen.toNat ≤ a)
    (hlt : a < s.mlen.toNat + padCount s.mlen.toNat) : s.padded.messageByte a = BitVec.ofNat 8 (padCount s.mlen.toNat) := by
  rw [State.padded, State.done_messageByte, State.setMlen_messageByte, State.messageByte_writeMessage, if_pos hle,
    List.getD_eq_getElem _ _ (by rw [padding_length]; omega), getElem_padding]

/-- Settles O24: the bytes written behind the old message are the padding of its length. -/
theorem padAppendsThePadding : Obligations.PadAppendsThePadding := by
  refine ⟨rfl, fun s hwf hcap => ?_, fun s hcap => exec_pad_of_lt hcap⟩
  obtain ⟨-, -, hmcap⟩ := hwf
  have hlt : s.mlen.toNat + padCount s.mlen.toNat < 2 ^ 32 := Nat.lt_of_le_of_lt hcap hmcap
  have hexec := exec_pad_of_le hcap
  refine ⟨s.padded, hexec, rfl, State.padded_mlen hlt, fun a => s.padded_messageByte, State.padded_message hlt,
    (exec_sameOutside hexec).mono ?_⟩
  rintro loc (hbyte | hmlen | herr)
  · exact .inr (.inr hbyte)
  · exact .inr (.inl hmlen)
  · exact .inl herr

/-! ## UNPAD -/

theorem paddingCount_message_eq_some_iff {s : State} {n : Nat} : paddingCount s.message = some n ↔
    Spec.ValidPadding s.messageByte s.mlen.toNat ∧ n = (s.messageByte (s.mlen.toNat - 1)).toNat := by
  rw [paddingCount_eq_some_iff_validPadding s.message_getElem, State.message_length]

theorem exec_unpad_of_some {s : State} {n : Nat} (hcap : s.mlen.toNat ≤ s.cfg.mcap) (hn : paddingCount s.message = some n) :
    exec .unpad s = .next (s.setMlen (s.mlen.toNat - n)).done := by
  rcases execUnpad_cases s with ⟨hlt, -⟩ | ⟨-, hnone, -⟩ | ⟨-, k, hk, h⟩
  · omega
  · rw [hn] at hnone
    cases hnone
  · rw [hn] at hk
    cases hk
    exact h

theorem exec_unpad_of_none {s : State} (hcap : s.mlen.toNat ≤ s.cfg.mcap) (hn : paddingCount s.message = none) :
    exec .unpad s = .next (s.raise .invalidPadding) := by
  rcases execUnpad_cases s with ⟨hlt, -⟩ | ⟨-, -, h⟩ | ⟨-, k, hk, -⟩
  · omega
  · exact h
  · rw [hn] at hk
    cases hk

theorem exec_unpad_of_lt {s : State} (h : s.cfg.mcap < s.mlen.toNat) : exec .unpad s = .next (s.raise .capacity) := by
  rcases execUnpad_cases s with ⟨-, hcap⟩ | ⟨hle, -⟩ | ⟨hle, -⟩
  · exact hcap
  · omega
  · omega

/-- UNPAD that succeeds leaves `unpad` of the message: it keeps the first bytes and only shortens `MLEN` (R153). -/
theorem unpad_message_of_exec_unpad {s t : State} (h : exec .unpad s = .next t) (herr : t.err = 0) :
    unpad s.message = some t.message := by
  rcases exec_cases h with ⟨e, -, rfl⟩ | ⟨u, hu, rfl⟩
  · exact absurd herr e.code_ne_ok
  · cases hu with
    | unpad _ hn =>
      rw [State.done_message, State.message_setMlen_of_le s (Nat.sub_le ..), unpad, hn, State.message_length]
      rfl

/-- Settles O25: the count that the tests accept is the last byte of a valid padding. -/
theorem unpadChecksAndShortens : Obligations.UnpadChecksAndShortens := by
  refine ⟨rfl, fun s hcap hvalid => ?_, fun s t => unpad_message_of_exec_unpad, fun s hcap hinvalid => ?_,
    fun s => exec_unpad_of_lt⟩
  · exact exec_unpad_of_some hcap (paddingCount_message_eq_some_iff.mpr ⟨hvalid, rfl⟩)
  · refine exec_unpad_of_none hcap (Option.eq_none_iff_forall_ne_some.mpr fun n hn => ?_)
    exact hinvalid (paddingCount_message_eq_some_iff.mp hn).1

end Sys2Proof.Machine
end

section
/-! PROOF. The encryption table (42_key_scheduler.md R170 to R172). An entry of the growing key stream never changes once it is
there, so every entry of the table is the recurrence on entries of the same table; and the recurrence joins two words to a window
on their bits. -/

namespace Sys2Proof.Machine

/-! ## The key stream -/

theorem expandKeys_getElem_of_le (mode : KsMode) (first : Vector Word 8) {n m i : Nat} (hnm : n ≤ m) (hi : i < 8 + n) :
    (expandKeys mode first m)[i] = (expandKeys mode first n)[i] := by
  induction m, hnm using Nat.le_induction with
  | base => rfl
  | succ m hnm ih => rw [expandKeys, Vector.getElem_push_lt (by omega), ih]

/-- The table holds what the key stream held when it was `8 + n` entries long. -/
theorem deriveEncryptionKeys_getElem (mode : KsMode) (key : Vector Byte 16) {n i : Nat} (hn : n ≤ 44) (hi : i < 8 + n) :
    (deriveEncryptionKeys mode key)[i] = (expandKeys mode (bytesToWords (n := 8) key) n)[i] := by
  unfold deriveEncryptionKeys
  exact expandKeys_getElem_of_le mode _ hn hi

theorem deriveEncryptionKeys_first (mode : KsMode) (key : Vector Byte 16) {i : Nat} (hi : i < 8) :
    (deriveEncryptionKeys mode key)[i] = wordOfBytes key[2 * i] key[2 * i + 1] := by
  rw [deriveEncryptionKeys_getElem mode key (Nat.zero_le 44) hi]
  exact bytesToWords_getElem (n := 8) key i hi

theorem deriveEncryptionKeys_next (mode : KsMode) (key : Vector Byte 16) {n : Nat} (hn : n < 44) :
    (deriveEncryptionKeys mode key)[8 + n] = nextSubkey mode (expandKeys mode (bytesToWords (n := 8) key) n) := by
  rw [deriveEncryptionKeys_getElem mode key (n := n + 1) hn (by omega), expandKeys, Vector.getElem_push_eq]

theorem deriveEncryptionKeys_doc (key : Vector Byte 16) {i : Nat} (h8 : 8 ≤ i) (hi : i < 52) :
    (deriveEncryptionKeys .doc key)[i] =
      keyWindow (deriveEncryptionKeys .doc key)[i - 8] (deriveEncryptionKeys .doc key)[i - 7] := by
  obtain ⟨n, rfl⟩ := Nat.exists_eq_add_of_le h8
  rw [deriveEncryptionKeys_next .doc key (by omega), nextSubkey,
    deriveEncryptionKeys_getElem .doc key (n := n) (by omega) (by omega),
    deriveEncryptionKeys_getElem .doc key (n := n) (by omega) (by omega)]

/-- The index pattern of R172: `k[i]` is made from `k[a]` and `k[b]`. -/
def PublishedPattern (i a b : Nat) : Prop :=
  (i % 8 < 6 ∧ a = i - 7 ∧ b = i - 6) ∨ (i % 8 = 6 ∧ a = i - 7 ∧ b = i - 14) ∨ (i % 8 = 7 ∧ a = i - 15 ∧ b = i - 14)

theorem nextSubkey_published {n a b : Nat} (k : Vector Word (8 + n)) (hab : PublishedPattern (8 + n) a b)
    (ha : a < 8 + n) (hb : b < 8 + n) : nextSubkey .published k = keyWindow k[a] k[b] := by
  rcases hab with ⟨hi, rfl, rfl⟩ | ⟨hi, rfl, rfl⟩ | ⟨hi, rfl, rfl⟩
  · simp only [nextSubkey, hi, if_true]
  · simp only [nextSubkey, hi, Nat.lt_irrefl, if_false, if_true]
  · simp [nextSubkey, hi]

theorem deriveEncryptionKeys_published (key : Vector Byte 16) {i a b : Nat} (h8 : 8 ≤ i) (hi : i < 52)
    (ha : a < 52) (hb : b < 52) (hab : PublishedPattern i a b) :
    (deriveEncryptionKeys .published key)[i] =
      keyWindow (deriveEncryptionKeys .published key)[a] (deriveEncryptionKeys .published key)[b] := by
  have hai : a < i ∧ b < i := by unfold PublishedPattern at hab; omega
  obtain ⟨n, rfl⟩ := Nat.exists_eq_add_of_le h8
  obtain ⟨ha', hb'⟩ := hai
  rw [deriveEncryptionKeys_next .published key (by omega), nextSubkey_published _ hab ha' hb',
    deriveEncryptionKeys_getElem .published key (n := n) (by omega) ha',
    deriveEncryptionKeys_getElem .published key (n := n) (by omega) hb']

/-! ## The window -/

theorem keyWindow_eq_ofNat (a b : Word) :
    keyWindow a b = BitVec.ofNat 16 (((a.toNat <<< 9) ||| (b.toNat >>> 7)) &&& 0xFFFF) := by
  have hb : b.toNat >>> 7 < 2 ^ 16 := (b >>> 7).isLt
  have hmask (v : Nat) : v &&& 0xFFFF = v % 2 ^ 16 := Nat.and_two_pow_sub_one_eq_mod v 16
  apply BitVec.eq_of_toNat_eq
  rw [keyWindow, BitVec.toNat_or, BitVec.toNat_shiftLeft, BitVec.toNat_ushiftRight, hmask, BitVec.toNat_ofNat, Nat.mod_mod,
    Nat.or_mod_two_pow, Nat.mod_eq_of_lt hb]

theorem getMsbD_keyWindow (a b : Word) {q : Nat} (hq : q < 16) :
    (keyWindow a b).getMsbD q = if q < 7 then a.getMsbD (q + 9) else b.getMsbD (q - 7) := by
  simp only [keyWindow, BitVec.getMsbD_or, BitVec.getMsbD_shiftLeft, BitVec.getMsbD_ushiftRight]
  by_cases h7 : q < 7
  · simp [h7, hq]
  · simp [h7, hq, BitVec.getMsbD_of_ge a (q + 9) (by omega)]

/-- Bits 22 to 7 of the two words in a row (R171). -/
theorem keyWindow_eq_extractLsb' (a b : Word) : keyWindow a b = (a ++ b).extractLsb' 7 16 := by
  refine BitVec.eq_of_getLsbD_eq fun i hi => ?_
  simp only [keyWindow, BitVec.getLsbD_or, BitVec.getLsbD_shiftLeft, BitVec.getLsbD_ushiftRight, BitVec.getLsbD_extractLsb',
    BitVec.getLsbD_append]
  by_cases h9 : i < 9
  · simp [h9, hi, show 7 + i < 16 by omega]
  · simp [h9, hi, show ¬ 7 + i < 16 by omega, show 7 + i - 16 = i - 9 by omega, BitVec.getLsbD_of_ge b (7 + i) (by omega)]

/-! ## The statements -/

/-- Settles O26: the words of the key, and the recurrence of R170 read on numbers. -/
theorem encryptionTableRecurrence : Obligations.EncryptionTableRecurrence := by
  refine fun key => ⟨fun i hi => ?_, fun i h8 hi => ?_⟩
  · rw [deriveEncryptionKeys_first .doc key hi, wordOfBytes_eq_ofNat]
  · rw [← keyWindow_eq_ofNat, deriveEncryptionKeys_doc key h8 hi]

/-- Settles O27: the two modes share the words of the key, and the window is the same on other entries. -/
theorem publishedTableRecurrence : Obligations.PublishedTableRecurrence := by
  refine fun key => ⟨fun i hi => ?_, fun i a b h8 hi ha hb hab => ?_⟩
  · rw [deriveEncryptionKeys_first .published key hi, deriveEncryptionKeys_first .doc key hi]
  · rw [← keyWindow_eq_ofNat, deriveEncryptionKeys_published key h8 hi ha hb hab]

/-- Settles O28: the bit at place `q` of a window stands 119 places before in the string, 9 places on in the word eight entries
back or 7 places back in the word seven entries back. -/
theorem keyStreamRepeatsBits : Obligations.KeyStreamRepeatsBits := by
  refine fun key => ⟨fun i h8 hi => ?_, fun p h128 hp => ?_⟩
  · rw [← keyWindow_eq_extractLsb', deriveEncryptionKeys_doc key h8 hi]
  · rw [deriveEncryptionKeys_doc key (by omega : 8 ≤ p / 16) (by omega), getMsbD_keyWindow _ _ (Nat.mod_lt p (by decide))]
    split
    · next h7 =>
      have hword : (p - 119) / 16 = p / 16 - 8 := by omega
      have hbit : (p - 119) % 16 = p % 16 + 9 := by omega
      simp only [hword, hbit]
    · next h7 =>
      have hword : (p - 119) / 16 = p / 16 - 7 := by omega
      have hbit : (p - 119) % 16 = p % 16 - 7 := by omega
      simp only [hword, hbit]

end Sys2Proof.Machine
end

section
/-! PROOF. The decryption table (42_key_scheduler.md R174, R175, R178). Each entry is one entry of the encryption table, inverted,
negated or copied, and the two positions always have one of a few fixed sums; so the relation between them is symmetric, and
deriving twice undoes itself. -/

namespace Sys2Proof.Machine

/-! ## Which entry an entry is made from -/

/-- Position `i` holds the multiplicative inverse of entry `k`: the first and fourth subkey of a group. -/
def InverseOf (i k : Nat) : Prop := (i % 6 = 0 ∧ i + k = 48) ∨ (i % 6 = 3 ∧ i + k = 54)

/-- Position `i` holds the negation of entry `k`: the additive pair, exchanged in the inner groups and in place in the first and
last. -/
def NegationOf (i k : Nat) : Prop :=
  (6 ≤ i ∧ i < 48 ∧ (i % 6 = 1 ∨ i % 6 = 2) ∧ i + k = 51) ∨ ((i = 1 ∨ i = 49) ∧ i + k = 50) ∨
    ((i = 2 ∨ i = 50) ∧ i + k = 52)

/-- Position `i` holds entry `k` itself: the mixing pair. -/
def CopyOf (i k : Nat) : Prop := (i % 6 = 4 ∧ i + k = 50) ∨ (i % 6 = 5 ∧ i + k = 52)

theorem InverseOf.symm {i k : Nat} : InverseOf i k → InverseOf k i
  | .inl ⟨hr, hsum⟩ => .inl (by omega)
  | .inr ⟨hr, hsum⟩ => .inr (by omega)

theorem NegationOf.symm {i k : Nat} : NegationOf i k → NegationOf k i
  | .inl ⟨h6, h48, hr, hsum⟩ => .inl (by omega)
  | .inr (.inl ⟨ho, hsum⟩) => .inr (.inl (by omega))
  | .inr (.inr ⟨ho, hsum⟩) => .inr (.inr (by omega))

theorem CopyOf.symm {i k : Nat} : CopyOf i k → CopyOf k i
  | .inl ⟨hr, hsum⟩ => .inl (by omega)
  | .inr ⟨hr, hsum⟩ => .inr (by omega)

theorem exists_source {i : Nat} (hi : i < 52) : ∃ k < 52, InverseOf i k ∨ NegationOf i k ∨ CopyOf i k := by
  obtain hr | hr | hr | hr | hr | hr : i % 6 = 0 ∨ i % 6 = 1 ∨ i % 6 = 2 ∨ i % 6 = 3 ∨ i % 6 = 4 ∨ i % 6 = 5 := by omega
  · exact ⟨48 - i, by omega, .inl (.inl ⟨hr, by omega⟩)⟩
  · by_cases houter : i = 1 ∨ i = 49
    · exact ⟨50 - i, by omega, .inr (.inl (.inr (.inl ⟨houter, by omega⟩)))⟩
    · exact ⟨51 - i, by omega, .inr (.inl (.inl ⟨by omega, by omega, .inl hr, by omega⟩))⟩
  · by_cases houter : i = 2 ∨ i = 50
    · exact ⟨52 - i, by omega, .inr (.inl (.inr (.inr ⟨houter, by omega⟩)))⟩
    · exact ⟨51 - i, by omega, .inr (.inl (.inl ⟨by omega, by omega, .inr hr, by omega⟩))⟩
  · exact ⟨54 - i, by omega, .inl (.inr ⟨hr, by omega⟩)⟩
  · exact ⟨50 - i, by omega, .inr (.inr (.inl ⟨hr, by omega⟩))⟩
  · exact ⟨52 - i, by omega, .inr (.inr (.inr ⟨hr, by omega⟩))⟩

/-! ## The three kinds of entry -/

section Entries

variable (ek : SubkeyTable) {i k : Nat} (hi : i < 52) (hk : k < 52)

theorem deriveDecryptionKeys_getElem : (deriveDecryptionKeys ek)[i] = decryptionSubkey ek ⟨i, hi⟩ := by
  unfold deriveDecryptionKeys
  exact Vector.getElem_ofFn hi

theorem deriveDecryptionKeys_inverse (h : InverseOf i k) : (deriveDecryptionKeys ek)[i] = mulInverse ek[k] := by
  rcases h with ⟨hr, hsum⟩ | ⟨hr, hsum⟩
  · obtain rfl : k = 6 * (8 - i / 6) := by omega
    simp only [deriveDecryptionKeys_getElem, decryptionSubkey, hr]
  · obtain rfl : k = 6 * (8 - i / 6) + 3 := by omega
    simp only [deriveDecryptionKeys_getElem, decryptionSubkey, hr]

theorem deriveDecryptionKeys_negation (h : NegationOf i k) : (deriveDecryptionKeys ek)[i] = neg16 ek[k] := by
  rcases h with ⟨h6, h48, hr | hr, hsum⟩ | ⟨ho, hsum⟩ | ⟨ho, hsum⟩
  · obtain rfl : k = 6 * (8 - i / 6) + 2 := by omega
    simp only [deriveDecryptionKeys_getElem, decryptionSubkey, hr, if_neg (show ¬ (i / 6 = 0 ∨ i / 6 = 8) by omega)]
  · obtain rfl : k = 6 * (8 - i / 6) + 1 := by omega
    simp only [deriveDecryptionKeys_getElem, decryptionSubkey, hr, if_neg (show ¬ (i / 6 = 0 ∨ i / 6 = 8) by omega)]
  · obtain rfl : k = 6 * (8 - i / 6) + 1 := by omega
    simp only [deriveDecryptionKeys_getElem, decryptionSubkey, show i % 6 = 1 by omega,
      if_pos (show i / 6 = 0 ∨ i / 6 = 8 by omega)]
  · obtain rfl : k = 6 * (8 - i / 6) + 2 := by omega
    simp only [deriveDecryptionKeys_getElem, decryptionSubkey, show i % 6 = 2 by omega,
      if_pos (show i / 6 = 0 ∨ i / 6 = 8 by omega)]

theorem deriveDecryptionKeys_copy (h : CopyOf i k) : (deriveDecryptionKeys ek)[i] = ek[k] := by
  rcases h with ⟨hr, hsum⟩ | ⟨hr, hsum⟩
  · obtain rfl : k = 6 * (8 - i / 6) - 2 := by omega
    simp only [deriveDecryptionKeys_getElem, decryptionSubkey, hr]
  · obtain rfl : k = 6 * (8 - i / 6) - 1 := by omega
    simp only [deriveDecryptionKeys_getElem, decryptionSubkey, hr]

end Entries

/-- Settles O29: the clauses of R174, each a pair of positions of one of the three kinds. -/
theorem decryptionTableByPosition : Obligations.DecryptionTableByPosition := by
  refine fun ek => ⟨?_, ?_, ?_, ?_, ?_, ?_, fun j h2 h8 => ⟨?_, ?_, ?_, ?_, ?_, ?_⟩, ?_, ?_, ?_, ?_⟩
  · exact deriveDecryptionKeys_inverse ek _ _ (.inl ⟨rfl, rfl⟩)
  · exact deriveDecryptionKeys_negation ek _ _ (.inr (.inl ⟨.inl rfl, rfl⟩))
  · exact deriveDecryptionKeys_negation ek _ _ (.inr (.inr ⟨.inl rfl, rfl⟩))
  · exact deriveDecryptionKeys_inverse ek _ _ (.inr ⟨rfl, rfl⟩)
  · exact deriveDecryptionKeys_copy ek _ _ (.inl ⟨rfl, rfl⟩)
  · exact deriveDecryptionKeys_copy ek _ _ (.inr ⟨rfl, rfl⟩)
  · exact deriveDecryptionKeys_inverse ek _ _ (.inl (by omega))
  · exact deriveDecryptionKeys_negation ek _ _ (.inl (by omega))
  · exact deriveDecryptionKeys_negation ek _ _ (.inl (by omega))
  · exact deriveDecryptionKeys_inverse ek _ _ (.inr (by omega))
  · exact deriveDecryptionKeys_copy ek _ _ (.inl (by omega))
  · exact deriveDecryptionKeys_copy ek _ _ (.inr (by omega))
  · exact deriveDecryptionKeys_inverse ek _ _ (.inl ⟨rfl, rfl⟩)
  · exact deriveDecryptionKeys_negation ek _ _ (.inr (.inl ⟨.inr rfl, rfl⟩))
  · exact deriveDecryptionKeys_negation ek _ _ (.inr (.inr ⟨.inr rfl, rfl⟩))
  · exact deriveDecryptionKeys_inverse ek _ _ (.inr ⟨rfl, rfl⟩)

/-- Settles O31: an entry's source has the entry as its own source, of the same kind, and inverse and negation are their own
inverses. -/
theorem derivingTwiceReturnsTheTable : Obligations.DerivingTwiceReturnsTheTable := by
  refine ⟨fun ek => Vector.ext fun i hi => ?_, Vector.ext fun i hi => ?_⟩
  · obtain ⟨k, hk, h | h | h⟩ := exists_source hi
    · rw [deriveDecryptionKeys_inverse _ hi hk h, deriveDecryptionKeys_inverse ek hk hi h.symm, mulInverse_mulInverse]
    · rw [deriveDecryptionKeys_negation _ hi hk h, deriveDecryptionKeys_negation ek hk hi h.symm, neg16_neg16]
    · rw [deriveDecryptionKeys_copy _ hi hk h, deriveDecryptionKeys_copy ek hk hi h.symm]
  · obtain ⟨k, hk, h | h | h⟩ := exists_source hi
    · rw [deriveDecryptionKeys_inverse _ hi hk h, Vector.getElem_replicate, Vector.getElem_replicate, mulInverse_zero]
    · rw [deriveDecryptionKeys_negation _ hi hk h, Vector.getElem_replicate, Vector.getElem_replicate]
      rfl
    · rw [deriveDecryptionKeys_copy _ hi hk h, Vector.getElem_replicate, Vector.getElem_replicate]

/-! ## The table written backward -/

/-- What one group of the backward writing adds (R175). -/
def backwardGroup (ek : SubkeyTable) (written : List Word) (g : Nat) : List Word :=
  let t1 := mulInverse ek[6 * g]!
  let t2 := neg16 ek[6 * g + 1]!
  let t3 := neg16 ek[6 * g + 2]!
  let t4 := mulInverse ek[6 * g + 3]!
  (if g < 8 then [t1, t3, t2, t4] else [t1, t2, t3, t4]) ++ ek[6 * g - 2]! :: ek[6 * g - 1]! :: written

theorem drop_deriveDecryptionKeys (ek : SubkeyTable) {i : Nat} (hi : i < 52) : (deriveDecryptionKeys ek).toList.drop i =
    (deriveDecryptionKeys ek)[i] :: (deriveDecryptionKeys ek).toList.drop (i + 1) := by
  rw [List.drop_eq_getElem_cons (by simpa using hi), Vector.getElem_toList]

/-- The six entries of the group at position `6 * e`, for any group but the last. -/
theorem drop_deriveDecryptionKeys_group (ek : SubkeyTable) {e : Nat} (he : e ≤ 7) :
    (deriveDecryptionKeys ek).toList.drop (6 * e) =
      [(deriveDecryptionKeys ek)[6 * e], (deriveDecryptionKeys ek)[6 * e + 1], (deriveDecryptionKeys ek)[6 * e + 2],
        (deriveDecryptionKeys ek)[6 * e + 3], (deriveDecryptionKeys ek)[6 * e + 4], (deriveDecryptionKeys ek)[6 * e + 5]] ++
      (deriveDecryptionKeys ek).toList.drop (6 * (e + 1)) := by
  iterate 6 rw [drop_deriveDecryptionKeys ek (by omega)]
  rfl

/-- One group of the backward writing puts the group at position `6 * e` in front of the rest of the table. -/
theorem backwardGroup_drop (ek : SubkeyTable) {g e : Nat} (h1 : 1 ≤ g) (hge : g + e = 8) :
    backwardGroup ek ((deriveDecryptionKeys ek).toList.drop (6 * (e + 1))) g =
      (deriveDecryptionKeys ek).toList.drop (6 * e) := by
  rw [drop_deriveDecryptionKeys_group ek (e := e) (by omega),
    deriveDecryptionKeys_inverse ek (i := 6 * e) (k := 6 * g) _ (by omega) (.inl (by omega)),
    deriveDecryptionKeys_inverse ek (i := 6 * e + 3) (k := 6 * g + 3) _ (by omega) (.inr (by omega)),
    deriveDecryptionKeys_copy ek (i := 6 * e + 4) (k := 6 * g - 2) _ (by omega) (.inl (by omega)),
    deriveDecryptionKeys_copy ek (i := 6 * e + 5) (k := 6 * g - 1) _ (by omega) (.inr (by omega))]
  simp (disch := omega) only [backwardGroup, getElem!_pos]
  split
  · next hinner =>
    rw [deriveDecryptionKeys_negation ek (i := 6 * e + 1) (k := 6 * g + 2) _ (by omega) (.inl (by omega)),
      deriveDecryptionKeys_negation ek (i := 6 * e + 2) (k := 6 * g + 1) _ (by omega) (.inl (by omega))]
    rfl
  · next houter =>
    rw [deriveDecryptionKeys_negation ek (i := 6 * e + 1) (k := 6 * g + 1) _ (by omega) (.inr (.inl (by omega))),
      deriveDecryptionKeys_negation ek (i := 6 * e + 2) (k := 6 * g + 2) _ (by omega) (.inr (.inr (by omega)))]
    rfl

/-- After `n` groups the table is written from position `6 * e` to its end. -/
theorem foldl_backwardGroup (ek : SubkeyTable) {n e : Nat} (hne : n + e = 8) :
    (List.range' 1 n).foldl (backwardGroup ek) ((deriveDecryptionKeys ek).toList.drop 48) =
      (deriveDecryptionKeys ek).toList.drop (6 * e) := by
  induction n generalizing e with
  | zero => rw [Nat.zero_add] at hne; rw [hne]; rfl
  | succ n ih =>
    rw [List.range'_1_concat, List.foldl_append, ih (e := e + 1) (by omega), List.foldl_cons, List.foldl_nil,
      backwardGroup_drop ek (by omega) (by omega)]

/-- The output transformation's subkeys, which the backward writing starts with. -/
theorem drop_deriveDecryptionKeys_output (ek : SubkeyTable) : (deriveDecryptionKeys ek).toList.drop 48 =
    [mulInverse ek[0], neg16 ek[1], neg16 ek[2], mulInverse ek[3]] := by
  rw [drop_deriveDecryptionKeys ek (by decide), drop_deriveDecryptionKeys ek (by decide),
    drop_deriveDecryptionKeys ek (by decide), drop_deriveDecryptionKeys ek (by decide), List.drop_of_length_le (by simp),
    deriveDecryptionKeys_inverse ek (i := 48) (k := 0) _ (by decide) (.inl (by decide)),
    deriveDecryptionKeys_negation ek (i := 49) (k := 1) _ (by decide) (.inr (by decide)),
    deriveDecryptionKeys_negation ek (i := 50) (k := 2) _ (by decide) (.inr (by decide)),
    deriveDecryptionKeys_inverse ek (i := 51) (k := 3) _ (by decide) (.inr (by decide))]

theorem backwardTable_eq_foldl (ek : SubkeyTable) : Spec.backwardTable ek =
    (List.range' 1 8).foldl (backwardGroup ek) [mulInverse ek[0], neg16 ek[1], neg16 ek[2], mulInverse ek[3]] := rfl

/-- Settles O30: the backward writing fills the table from its end, group by group. -/
theorem backwardWritingGivesTheSameTable : Obligations.BackwardWritingGivesTheSameTable := by
  intro ek
  rw [backwardTable_eq_foldl, ← drop_deriveDecryptionKeys_output, foldl_backwardGroup ek (Nat.add_zero 8)]
  rfl

end Sys2Proof.Machine
end

section
/-! PROOF. The key-scheduler commands (42_key_scheduler.md R179 to R181): each ends in its one error or in the state its rule
names, and NEW does what KEXPE and then KEXPD do. -/

namespace Sys2Proof.Machine

/-- The later write of a `STAT` field is the one that counts. -/
theorem withStatBit_withStatBit (v : Byte) {i : Nat} (hi : i < 8) (b c : Bool) :
    withStatBit (withStatBit v i b) i c = withStatBit v i c := by
  refine BitVec.eq_of_getLsbD_eq fun k _ => ?_
  simp only [getLsbD_withStatBit _ i _ k hi]
  split
  · rfl
  · rfl

@[simp] theorem withDkv_withDkv (v : Byte) (b c : Bool) : withDkv (withDkv v b) c = withDkv v c :=
  withStatBit_withStatBit v (by decide) b c

/-! ## The endings -/

theorem exec_kexpe_of_eq {s : State} (h : s.klen = 16) :
    exec .kexpe s = .next (((s.setEK s.derivedEK).setEkv true).setDkv false).done := by
  rcases execKexpe_cases s with ⟨hne, -⟩ | ⟨-, hexec⟩
  · exact absurd h hne
  · exact hexec

theorem exec_kexpe_of_ne {s : State} (h : s.klen ≠ 16) : exec .kexpe s = .next (s.raise .invalidKeyLength) := by
  rcases execKexpe_cases s with ⟨-, hexec⟩ | ⟨heq, -⟩
  · exact hexec
  · exact absurd heq h

theorem exec_kexpd_of_ekv {s : State} (h : s.ekv = true) :
    exec .kexpd s = .next ((s.setDK (deriveDecryptionKeys s.ek)).setDkv true).done := by
  rcases execKexpd_cases s with ⟨hno, -⟩ | ⟨-, hexec⟩
  · rw [h] at hno
    cases hno
  · exact hexec

theorem exec_kexpd_of_not_ekv {s : State} (h : s.ekv = false) : exec .kexpd s = .next (s.raise .noKey) := by
  rcases execKexpd_cases s with ⟨-, hexec⟩ | ⟨hyes, -⟩
  · exact hexec
  · rw [h] at hyes
    cases hyes

theorem exec_new_of_eq {s : State} (h : s.klen = 16) : exec .new s =
    .next ((((s.setEK s.derivedEK).setDK (deriveDecryptionKeys s.derivedEK)).setEkv true).setDkv true).done := by
  rcases execNew_cases s with ⟨hne, -⟩ | ⟨-, hexec⟩
  · exact absurd h hne
  · exact hexec

theorem exec_new_of_ne {s : State} (h : s.klen ≠ 16) : exec .new s = .next (s.raise .invalidKeyLength) := by
  rcases execNew_cases s with ⟨-, hexec⟩ | ⟨heq, -⟩
  · exact hexec
  · exact absurd heq h

/-- KEXPD finds the table KEXPE left, and its `DKV` replaces the one KEXPE cleared (R181). -/
theorem runCommands_kexpe_kexpd {s : State} (h : s.klen = 16) : runCommands [.kexpe, .kexpd] s =
    .next ((((s.setEK s.derivedEK).setDK (deriveDecryptionKeys s.derivedEK)).setEkv true).setDkv true).done := by
  have hekv : (((s.setEK s.derivedEK).setEkv true).setDkv false).done.ekv = true := by simp
  simp only [runCommands, exec_kexpe_of_eq h, exec_kexpd_of_ekv hekv]
  simp only [State.setDkv, State.setEkv, State.setEK, State.setDK, State.done, State.setErr, withDkv_withDkv]

/-! ## The statements -/

/-- Settles O32, from the two endings of KEXPE. -/
theorem kexpeDerivesTheEncryptionTable : Obligations.KexpeDerivesTheEncryptionTable :=
  ⟨rfl, fun _ h => ⟨_, exec_kexpe_of_eq h, rfl, by simp, by simp, (Succeeds.kexpe h).stat_reserved⟩,
    fun _ h => exec_kexpe_of_ne h⟩

/-- Settles O33, from the two endings of KEXPD. -/
theorem kexpdDerivesTheDecryptionTable : Obligations.KexpdDerivesTheDecryptionTable :=
  ⟨rfl, fun _ h => ⟨_, exec_kexpd_of_ekv h, rfl, by simp [h], by simp, (Succeeds.kexpd h).stat_reserved⟩,
    fun _ h => exec_kexpd_of_not_ekv h⟩

/-- Settles O34: the state NEW leaves is the one KEXPE and KEXPD lead to. -/
theorem newDerivesBothTables : Obligations.NewDerivesBothTables :=
  ⟨rfl, fun _ h => ⟨_, exec_new_of_eq h, rfl, by simp, by simp, (Succeeds.new h).stat_reserved, runCommands_kexpe_kexpd h⟩,
    fun _ h => exec_new_of_ne h⟩

end Sys2Proof.Machine
end

section
/-! PROOF. The tables and the valid bits stay in agreement (42_key_scheduler.md R183): the three key-scheduler commands set them
together, and no other command and no host action but the reset writes a table or `STAT` (10_state.md R34, R38). -/

namespace Sys2Proof.Machine

theorem KeyInv.of_eq {s t : State} (h : KeyInv s) (hek : t.ek = s.ek) (hdk : t.dk = s.dk) (hstat : t.stat = s.stat)
    (hmode : t.cfg.ksMode = s.cfg.ksMode) : KeyInv t := by
  have hekv : t.ekv = s.ekv := congrArg ekvBit hstat
  have hdkv : t.dkv = s.dkv := congrArg dkvBit hstat
  exact ⟨by rw [hdkv, hekv]; exact h.dkvEkv, by rw [hekv, hek, hmode]; exact h.ekvEK, by rw [hdkv, hdk, hek]; exact h.dkvDK⟩

/-- KEXPE derives `EK` and takes back `DKV`, KEXPD derives `DK` from the valid `EK`, NEW derives both. -/
theorem Succeeds.keeps_keyInv {i : Instr} {s u : State} (hs : KeyInv s) (h : Succeeds s i u) : KeyInv u := by
  cases h with
  | kexpe => exact ⟨by simp, fun _ => ⟨s.keyBytes, rfl⟩, by simp⟩
  | kexpd hv => exact ⟨fun _ => by simp [hv], fun _ => hs.ekvEK hv, fun _ => rfl⟩
  | new => exact ⟨by simp, fun _ => ⟨s.keyBytes, rfl⟩, fun _ => rfl⟩
  | _ => exact hs.of_eq rfl rfl rfl rfl

theorem exec_keeps_keyInv {i : Instr} {s t : State} (hs : KeyInv s) (h : exec i s = .next t) : KeyInv t := by
  rcases exec_cases h with ⟨e, -, rfl⟩ | ⟨u, hu, rfl⟩
  · exact hs.of_eq rfl rfl rfl rfl
  · exact (hu.keeps_keyInv hs).of_eq rfl rfl rfl rfl

/-- The host stores only in places of column "host writes" of 10_state.md R38. -/
theorem hostWrites_of_hostStore {s t : State} {loc : Loc} {v : Nat} (h : s.hostStore loc v = .ok t) :
    loc.hostWrites = true := by
  by_cases hc : loc = .cmd
  · rw [hc]; rfl
  · have hwf : (HostAction.write loc v).wellFormed s.cfg = true := by rw [← s.hostStore_isOk v hc, h]; rfl
    simp only [HostAction.wellFormed, Bool.and_eq_true] at hwf
    obtain ⟨⟨-, hwrites⟩, -⟩ := hwf
    exact hwrites

theorem hostStore_keeps_keyInv {s t : State} {loc : Loc} {v : Nat} (hs : KeyInv s) (h : s.hostStore loc v = .ok t) :
    KeyInv t := by
  have hframe := State.hostStore_sameOutside h
  have hwrites := hostWrites_of_hostStore h
  obtain ⟨hcfg, -⟩ := hframe.1
  refine hs.of_eq (hframe.ek_eq fun i => ?_) (hframe.dk_eq fun i => ?_) (hframe.stat_eq ?_) (by rw [hcfg])
  all_goals rintro rfl; cases hwrites

/-- After a reset no table is valid (10_state.md R40). -/
theorem keyInv_resetEvent (s : State) : KeyInv s.resetEvent := by
  have hekv : s.resetEvent.ekv = false := by rw [State.ekv, s.resetEvent_stat]; rfl
  have hdkv : s.resetEvent.dkv = false := by rw [State.dkv, s.resetEvent_stat]; rfl
  exact ⟨by simp [hdkv], by simp [hekv], by simp [hdkv]⟩

/-- Settles O59, event by event: only a key-scheduler command and the reset write a table or a valid bit. -/
theorem stepKeepsTheCipherInstance : Obligations.StepKeepsTheCipherInstance := by
  intro s t hs h
  rcases step_cases h with ⟨-, rfl⟩ | ⟨a, rest, -, hevent⟩
  · exact hs
  · have hs' : KeyInv { s with actions := rest } := hs.of_eq rfl rfl rfl rfl
    rcases hevent with ⟨loc, v, -, -, hstore⟩ | ⟨loc, v, -, -, rfl⟩ | ⟨-, rfl⟩ | rfl | ⟨i, hexec⟩
    · exact hostStore_keeps_keyInv hs' hstore
    · exact hs.of_eq rfl rfl rfl rfl
    · exact keyInv_resetEvent _
    · exact hs'.of_eq rfl rfl rfl rfl
    · exact exec_keeps_keyInv hs' hexec

end Sys2Proof.Machine
end

section
/-! PROOF. The block commands (43_block_transform.md R201, R203, R206, R208). All of them put one function of the selected table
and the block into the block registers, or raise `NoKey`; so two of them in a row with the same table are one with the composed
function, also without a key. -/

namespace Sys2Proof.Machine

/-! ## The commands of either table -/

/-- ROUND with a table select. -/
def roundCommand : TableSelect → Fin 8 → Instr
  | .e => .roundE
  | .d => .roundD

/-- OUTXF with a table select. -/
def outxfCommand : TableSelect → Instr
  | .e => .outxfE
  | .d => .outxfD

/-- XFORM with a table select. -/
def xformCommand : TableSelect → Instr
  | .e => .xformE
  | .d => .xformD

theorem exec_roundCommand (t : TableSelect) (r : Fin 8) (s : State) :
    exec (roundCommand t r) s = .next (s.blockCommand t fun k x => blockRound x (roundKeys k r)) := by
  cases t <;> rfl

theorem exec_outxfCommand (t : TableSelect) (s : State) :
    exec (outxfCommand t) s = .next (s.blockCommand t fun k x => outxf x (outputKeys k)) := by
  cases t <;> rfl

theorem exec_xformCommand (t : TableSelect) (s : State) : exec (xformCommand t) s = .next (s.blockCommand t transform) := by
  cases t <;> rfl

/-! ## What a block command leaves -/

theorem State.blockCommand_eq (s : State) (t : TableSelect) (f : SubkeyTable → Block → Block) :
    s.blockCommand t f = if s.tableValid t then
        { s with x1 := (f (s.table t) s.block).x1, x2 := (f (s.table t) s.block).x2, x3 := (f (s.table t) s.block).x3,
                 x4 := (f (s.table t) s.block).x4, err := 0 }
      else { s with err := 4 } := rfl

@[simp] theorem State.blockCommand_table (s : State) (t t' : TableSelect) (f : SubkeyTable → Block → Block) :
    (s.blockCommand t f).table t' = s.table t' := by
  rcases s.blockCommand_cases t f with ⟨-, h⟩ | ⟨-, h⟩
  · rw [h]; cases t' <;> rfl
  · rw [h]; cases t' <;> rfl

@[simp] theorem State.blockCommand_tableValid (s : State) (t t' : TableSelect) (f : SubkeyTable → Block → Block) :
    (s.blockCommand t f).tableValid t' = s.tableValid t' := by
  rcases s.blockCommand_cases t f with ⟨-, h⟩ | ⟨-, h⟩
  · rw [h]; cases t' <;> rfl
  · rw [h]; cases t' <;> rfl

theorem State.blockCommand_block {s : State} {t : TableSelect} (h : s.tableValid t = true)
    (f : SubkeyTable → Block → Block) : (s.blockCommand t f).block = f (s.table t) s.block := by
  rw [s.blockCommand_valid t f h]
  rfl

/-- A block command finds the table and the valid bit the one before it found. -/
theorem State.blockCommand_blockCommand (s : State) (t : TableSelect) (f g : SubkeyTable → Block → Block) :
    (s.blockCommand t f).blockCommand t g = s.blockCommand t fun k x => g k (f k x) := by
  cases h : s.tableValid t
  · have h' : (s.blockCommand t f).tableValid t = false := by rw [s.blockCommand_tableValid, h]
    rw [blockCommand_noKey _ t g h', s.blockCommand_noKey t _ h, s.blockCommand_noKey t _ h]
    rfl
  · have h' : (s.blockCommand t f).tableValid t = true := by rw [s.blockCommand_tableValid, h]
    rw [blockCommand_valid _ t g h', s.blockCommand_table, blockCommand_block h, s.blockCommand_valid t _ h,
      s.blockCommand_valid t _ h]
    rfl

theorem exec_xformCommand_of_valid {s : State} {t : TableSelect} (h : s.tableValid t = true) :
    exec (xformCommand t) s = .next (s.setBlock (transform (s.table t) s.block)).done := by
  rw [exec_xformCommand, s.blockCommand_valid t _ h]

theorem exec_xformCommand_of_not_valid {s : State} {t : TableSelect} (h : s.tableValid t = false) :
    exec (xformCommand t) s = .next (s.raise .noKey) := by
  rw [exec_xformCommand, s.blockCommand_noKey t _ h]

/-- The eight rounds and the output transformation are the nine commands' functions, one after the other (R204). -/
theorem runCommands_parts (t : TableSelect) (s : State) :
    runCommands [roundCommand t 0, roundCommand t 1, roundCommand t 2, roundCommand t 3, roundCommand t 4, roundCommand t 5,
      roundCommand t 6, roundCommand t 7, outxfCommand t] s = exec (xformCommand t) s := by
  simp only [runCommands, exec_roundCommand, exec_outxfCommand, exec_xformCommand, State.blockCommand_blockCommand]
  unfold transform
  rfl

/-! ## The statements -/

/-- Settles O36: the round of R200 is the function of either command. -/
theorem roundCommandsRunOneRound : Obligations.RoundCommandsRunOneRound := by
  refine fun r s => ⟨?_, ?_, fun i t valid hsel => ?_⟩
  · revert r; decide
  · revert r; decide
  · rintro _ _ _ _ _ _ _ _ _ _ _ _ _ rfl rfl rfl rfl rfl rfl rfl rfl rfl rfl rfl rfl rfl
    rcases hsel with ⟨rfl, rfl, rfl⟩ | ⟨rfl, rfl, rfl⟩
    · exact (exec_roundCommand .e r s).trans (congrArg Host.Outcome.next (s.blockCommand_eq .e _))
    · exact (exec_roundCommand .d r s).trans (congrArg Host.Outcome.next (s.blockCommand_eq .d _))

/-- Settles O37: the output transformation of R202 is the function of either command. -/
theorem outxfCommandsApplyTheOutput : Obligations.OutxfCommandsApplyTheOutput :=
  ⟨rfl, rfl, fun s =>
    ⟨(exec_outxfCommand .e s).trans (congrArg Host.Outcome.next (s.blockCommand_eq .e _)),
      (exec_outxfCommand .d s).trans (congrArg Host.Outcome.next (s.blockCommand_eq .d _))⟩⟩

/-- Settles O38, from the two endings of XFORM. -/
theorem xformCommandsTransformTheBlock : Obligations.XformCommandsTransformTheBlock :=
  ⟨rfl, rfl, fun _ h => ⟨_, exec_xformCommand_of_valid (t := .e) h, rfl, rfl⟩,
    fun _ h => ⟨_, exec_xformCommand_of_valid (t := .d) h, rfl, rfl⟩,
    fun _ h => exec_xformCommand_of_not_valid (t := .e) h, fun _ h => exec_xformCommand_of_not_valid (t := .d) h⟩

/-- Settles O39: the nine commands compose to XFORM, with either table. -/
theorem xformEqualsItsParts : Obligations.XformEqualsItsParts :=
  fun s => ⟨runCommands_parts .e s, runCommands_parts .d s⟩

end Sys2Proof.Machine
end

section
/-! PROOF. The transform is invertible (43_block_transform.md R209, R210). A round is a key input, which the inverse subkeys undo,
then a mixing, which is its own inverse, then the exchange of the two middle words; and a key input and an exchange change places
when the additive subkeys do. So each round under the decryption table undoes the mixing and the key input of the round of
encryption that is as far from the other end. -/

namespace Sys2Proof.Machine

/-! ## The parts of a round -/

/-- Steps 1 to 4 of R200: a subkey goes into each word. -/
def keyInput (x : Block) (k : OutputKeys) : Block :=
  { x1 := mulMod x.x1 k.z1, x2 := add16 x.x2 k.z2, x3 := add16 x.x3 k.z3, x4 := mulMod x.x4 k.z4 }

/-- Steps 5 to 9 of R200, with each word left in its place. -/
def mixing (z5 z6 : Word) (x : Block) : Block :=
  let u := mulMod (xor16 x.x1 x.x3) z5
  let t1 := mulMod (add16 u (xor16 x.x2 x.x4)) z6
  let t2 := add16 t1 u
  { x1 := xor16 x.x1 t1, x2 := xor16 x.x2 t2, x3 := xor16 x.x3 t1, x4 := xor16 x.x4 t2 }

/-- The two middle words change places. -/
def exchange (x : Block) : Block := { x1 := x.x1, x2 := x.x3, x3 := x.x2, x4 := x.x4 }

/-- The subkeys of a round's key input. -/
def inputKeys (z : RoundKeys) : OutputKeys := { z1 := z.z1, z2 := z.z2, z3 := z.z3, z4 := z.z4 }

/-- The subkeys whose key input undoes that of `k`. -/
def inverseKeys (k : OutputKeys) : OutputKeys :=
  { z1 := mulInverse k.z1, z2 := neg16 k.z2, z3 := neg16 k.z3, z4 := mulInverse k.z4 }

/-- The two additive subkeys change places. -/
def exchangeKeys (k : OutputKeys) : OutputKeys := { z1 := k.z1, z2 := k.z3, z3 := k.z2, z4 := k.z4 }

theorem blockRound_eq (x : Block) (z : RoundKeys) :
    blockRound x z = exchange (mixing z.z5 z.z6 (keyInput x (inputKeys z))) := rfl

theorem outxf_eq (x : Block) (k : OutputKeys) : outxf x k = keyInput (exchange x) k := rfl

theorem transform_eq (t : SubkeyTable) (x : Block) :
    transform t x = keyInput (exchange (rounds t x 8 (Nat.le_refl 8))) (outputKeys t) := by
  unfold transform
  exact outxf_eq _ _

/-! ## The laws of the parts -/

@[simp] theorem add16_add16_neg16 (a b : Word) : add16 (add16 a b) (neg16 b) = a := by
  rw [add16_assoc, add16_neg16, add16_zero]

@[simp] theorem xor16_xor16_self (a t : Word) : xor16 (xor16 a t) t = a := by
  rw [xor16_assoc, xor16_self, xor16_zero]

/-- The mixing leaves the xor of two words it changes by the same value. -/
@[simp] theorem xor16_xor16_xor16 (a b t : Word) : xor16 (xor16 a t) (xor16 b t) = xor16 a b := by
  rw [xor16_comm b, ← xor16_assoc, xor16_xor16_self]

@[simp] theorem exchange_exchange (x : Block) : exchange (exchange x) = x := rfl

@[simp] theorem mixing_mixing (z5 z6 : Word) (x : Block) : mixing z5 z6 (mixing z5 z6 x) = x := by
  simp only [mixing, xor16_xor16_xor16, xor16_xor16_self]

@[simp] theorem inverseKeys_inverseKeys (k : OutputKeys) : inverseKeys (inverseKeys k) = k := by
  simp only [inverseKeys, mulInverse_mulInverse, neg16_neg16]

@[simp] theorem keyInput_inverseKeys (x : Block) (k : OutputKeys) : keyInput (keyInput x k) (inverseKeys k) = x := by
  simp only [keyInput, inverseKeys, mulMod_mulMod_mulInverse, add16_add16_neg16]

theorem keyInput_exchange (x : Block) (k : OutputKeys) :
    keyInput (exchange x) (exchangeKeys k) = exchange (keyInput x k) := rfl

theorem keyInput_bijective (k : OutputKeys) : Function.Bijective fun x => keyInput x k :=
  Function.bijective_iff_has_inverse.mpr ⟨fun x => keyInput x (inverseKeys k), fun x => keyInput_inverseKeys x k,
    fun x => by simpa only [inverseKeys_inverseKeys] using keyInput_inverseKeys x (inverseKeys k)⟩

theorem exchange_bijective : Function.Bijective exchange :=
  Function.Involutive.bijective exchange_exchange

theorem mixing_bijective (z5 z6 : Word) : Function.Bijective (mixing z5 z6) :=
  Function.Involutive.bijective (mixing_mixing z5 z6)

theorem blockRound_bijective (z : RoundKeys) : Function.Bijective fun x => blockRound x z :=
  exchange_bijective.comp ((mixing_bijective z.z5 z.z6).comp (keyInput_bijective (inputKeys z)))

theorem outxf_bijective (k : OutputKeys) : Function.Bijective fun x => outxf x k :=
  (keyInput_bijective k).comp exchange_bijective

/-! ## The subkeys of the decryption table, group by group (42_key_scheduler.md R174) -/

section Groups

variable (ek : SubkeyTable)

theorem inputKeys_deriveDecryptionKeys_zero :
    inputKeys (roundKeys (deriveDecryptionKeys ek) 0) = inverseKeys (outputKeys ek) :=
  (OutputKeys.mk.injEq ..).mpr
    ⟨deriveDecryptionKeys_inverse ek _ _ (.inl (by decide)), deriveDecryptionKeys_negation ek _ _ (.inr (.inl (by decide))),
      deriveDecryptionKeys_negation ek _ _ (.inr (.inr (by decide))), deriveDecryptionKeys_inverse ek _ _ (.inr (by decide))⟩

theorem outputKeys_deriveDecryptionKeys :
    outputKeys (deriveDecryptionKeys ek) = inverseKeys (inputKeys (roundKeys ek 0)) :=
  (OutputKeys.mk.injEq ..).mpr
    ⟨deriveDecryptionKeys_inverse ek _ _ (.inl (by decide)), deriveDecryptionKeys_negation ek _ _ (.inr (.inl (by decide))),
      deriveDecryptionKeys_negation ek _ _ (.inr (.inr (by decide))), deriveDecryptionKeys_inverse ek _ _ (.inr (by decide))⟩

theorem inputKeys_deriveDecryptionKeys {n m : Fin 8} (h : n.val + m.val = 8) :
    inputKeys (roundKeys (deriveDecryptionKeys ek) n) = exchangeKeys (inverseKeys (inputKeys (roundKeys ek m))) :=
  (OutputKeys.mk.injEq ..).mpr
    ⟨deriveDecryptionKeys_inverse ek _ _ (.inl (by omega)), deriveDecryptionKeys_negation ek _ _ (.inl (by omega)),
      deriveDecryptionKeys_negation ek _ _ (.inl (by omega)), deriveDecryptionKeys_inverse ek _ _ (.inr (by omega))⟩

theorem roundKeys_deriveDecryptionKeys_z5 {n m : Fin 8} (h : n.val + m.val = 7) :
    (roundKeys (deriveDecryptionKeys ek) n).z5 = (roundKeys ek m).z5 :=
  deriveDecryptionKeys_copy ek _ _ (.inl (by omega))

theorem roundKeys_deriveDecryptionKeys_z6 {n m : Fin 8} (h : n.val + m.val = 7) :
    (roundKeys (deriveDecryptionKeys ek) n).z6 = (roundKeys ek m).z6 :=
  deriveDecryptionKeys_copy ek _ _ (.inr (by omega))

/-! ## The transform under the decryption table -/

/-- When the key input of round `n` of decryption has led back to the words that round `m` of encryption left, before their
exchange, the rest of the round undoes the mixing of round `m`. -/
theorem blockRound_undoes_mixing {n m : Fin 8} (h : n.val + m.val = 7) {x y : Block}
    (hy : keyInput y (inputKeys (roundKeys (deriveDecryptionKeys ek) n)) = exchange (blockRound x (roundKeys ek m))) :
    blockRound y (roundKeys (deriveDecryptionKeys ek) n) = exchange (keyInput x (inputKeys (roundKeys ek m))) := by
  rw [blockRound_eq, hy, roundKeys_deriveDecryptionKeys_z5 ek h, roundKeys_deriveDecryptionKeys_z6 ek h, blockRound_eq,
    exchange_exchange, mixing_mixing]

/-- After rounds 0 to `n` of decryption the block is the one of encryption between the key input and the mixing of round
`m = 7 - n`, with its middle words exchanged. -/
theorem rounds_deriveDecryptionKeys_transform (x : Block) {n m : Nat} (hnm : n + m = 7) :
    rounds (deriveDecryptionKeys ek) (transform ek x) (n + 1) (by omega) =
      exchange (keyInput (rounds ek x m (by omega)) (inputKeys (roundKeys ek ⟨m, by omega⟩))) := by
  induction n generalizing m with
  | zero =>
    obtain rfl : m = 7 := by omega
    refine blockRound_undoes_mixing ek (n := 0) (m := 7) rfl ?_
    rw [inputKeys_deriveDecryptionKeys_zero, rounds, transform_eq, keyInput_inverseKeys]
    rfl
  | succ n ih =>
    refine blockRound_undoes_mixing ek (n := ⟨n + 1, by omega⟩) (m := ⟨m, by omega⟩) hnm ?_
    rw [ih (m := m + 1) (by omega),
      inputKeys_deriveDecryptionKeys ek (m := ⟨m + 1, by omega⟩) (show n + 1 + (m + 1) = 8 by omega), keyInput_exchange,
      keyInput_inverseKeys]
    rfl

theorem transform_deriveDecryptionKeys_transform (x : Block) :
    transform (deriveDecryptionKeys ek) (transform ek x) = x := by
  rw [transform_eq (deriveDecryptionKeys ek), rounds_deriveDecryptionKeys_transform ek x (n := 7) (m := 0) rfl,
    exchange_exchange, outputKeys_deriveDecryptionKeys]
  exact keyInput_inverseKeys x _

/-- The other order is the same law for the decryption table, from which deriving leads back to `ek` (42_key_scheduler.md
R178). -/
theorem transform_transform_deriveDecryptionKeys (x : Block) :
    transform ek (transform (deriveDecryptionKeys ek) x) = x := by
  have h := transform_deriveDecryptionKeys_transform (deriveDecryptionKeys ek) x
  obtain ⟨htwice, -⟩ := derivingTwiceReturnsTheTable
  rwa [htwice] at h

theorem transform_bijective : Function.Bijective (transform ek) :=
  Function.bijective_iff_has_inverse.mpr ⟨transform (deriveDecryptionKeys ek), transform_deriveDecryptionKeys_transform ek,
    transform_transform_deriveDecryptionKeys ek⟩

end Groups

/-- XFORM with one table and then with the other: the first leaves both tables as they were. -/
theorem block_of_xform_xform {s t u : State} {a b : TableSelect} (ha : s.tableValid a = true) (hb : s.tableValid b = true)
    (ht : exec (xformCommand a) s = .next t) (hu : exec (xformCommand b) t = .next u) :
    u.block = transform (s.table b) (transform (s.table a) s.block) := by
  rw [exec_xformCommand] at ht hu
  obtain rfl := Host.Outcome.next.inj ht
  obtain rfl := Host.Outcome.next.inj hu
  rw [State.blockCommand_block (by rw [s.blockCommand_tableValid, hb]), s.blockCommand_table, State.blockCommand_block ha]

/-- Settles O40: decryption undoes encryption round by round, and deriving the table twice exchanges the two. -/
theorem transformIsInvertible : Obligations.TransformIsInvertible := by
  refine ⟨fun ek b => ⟨transform_deriveDecryptionKeys_transform ek b, transform_transform_deriveDecryptionKeys ek b⟩,
    fun s t u he hd hdk => ⟨fun ht hu => ?_, fun ht hu => ?_⟩⟩
  · calc u.block = transform s.dk (transform s.ek s.block) := block_of_xform_xform (a := .e) (b := .d) he hd ht hu
      _ = s.block := by rw [hdk, transform_deriveDecryptionKeys_transform]
  · calc u.block = transform s.ek (transform s.dk s.block) := block_of_xform_xform (a := .d) (b := .e) hd he ht hu
      _ = s.block := by rw [hdk, transform_transform_deriveDecryptionKeys]

/-- Settles O41: a round and the output transformation are made of bijections, and the transform has the one under the derived
table as its inverse. -/
theorem blockFunctionsAreBijective : Obligations.BlockFunctionsAreBijective :=
  ⟨transform_bijective, blockRound_bijective, outxf_bijective⟩

end Sys2Proof.Machine
end

section
/-! PROOF. Whole messages (44_cipher_facade.md R230, R232, R234). A sequence whose length is a multiple of 8 is a list of
blocks laid end to end (`exists_blocks`), and `transformBlocks` transforms them one by one: that each block of the result is the
block at its place transformed, and that the derived table undoes the encryption, are inductions on that list. -/

namespace Sys2Proof.Machine

/-! ## The blocks of a byte sequence -/

/-- Block `j` of a byte sequence. -/
def blockAt (bs : List Byte) (j : Nat) (h : 8 * j + 8 ≤ bs.length) : Vector Byte 8 :=
  Vector.ofFn fun i : Fin 8 => bs[8 * j + i.val]

theorem toList_blockAt (bs : List Byte) {j : Nat} (h : 8 * j + 8 ≤ bs.length) :
    (blockAt bs j h).toList = (bs.drop (8 * j)).take 8 := by
  refine List.ext_getElem (by simp; omega) fun i hi _ => ?_
  simp [blockAt]

theorem drop_eq_blockAt_append (bs : List Byte) {j : Nat} (h : 8 * j + 8 ≤ bs.length) :
    bs.drop (8 * j) = (blockAt bs j h).toList ++ bs.drop (8 * (j + 1)) := by
  rw [toList_blockAt, Nat.mul_succ, ← List.drop_drop, List.take_append_drop]

theorem exists_blocks {bs : List Byte} (h : bs.length % 8 = 0) :
    ∃ blocks : List (Vector Byte 8), bs = blocks.flatMap Vector.toList := by
  obtain ⟨n, hn⟩ := Nat.dvd_of_mod_eq_zero h
  clear h
  induction n generalizing bs with
  | zero => exact ⟨[], List.length_eq_zero_iff.mp hn⟩
  | succ n ih =>
    obtain ⟨blocks, hrest⟩ := ih (bs := bs.drop 8) (by rw [List.length_drop]; omega)
    refine ⟨blockAt bs 0 (by omega) :: blocks, ?_⟩
    rw [List.flatMap_cons, ← hrest]
    exact drop_eq_blockAt_append bs (j := 0) (by omega)

/-! ## The transform of whole blocks -/

theorem transformBlocks_append (t : SubkeyTable) {as : List Byte} (bs : List Byte) (h : as.length % 8 = 0) :
    transformBlocks t (as ++ bs) = transformBlocks t as ++ transformBlocks t bs := by
  obtain ⟨blocks, rfl⟩ := exists_blocks h
  clear h
  induction blocks with
  | nil => rfl
  | cons v blocks ih =>
    rw [List.flatMap_cons, List.append_assoc, transformBlocks_block, ih, transformBlocks_block, List.append_assoc]

theorem length_take_blocks {bs : List Byte} {j : Nat} (h : 8 * j ≤ bs.length) : (bs.take (8 * j)).length % 8 = 0 := by
  rw [List.length_take]
  omega

theorem length_transformBlocks_take (t : SubkeyTable) {bs : List Byte} {j : Nat} (h : 8 * j ≤ bs.length) :
    (transformBlocks t (bs.take (8 * j))).length = 8 * j := by
  rw [transformBlocks_length t _ (length_take_blocks h), List.length_take_of_le h]

/-- The first blocks transformed, and behind them the next one (R230). -/
theorem transformBlocks_take_succ (t : SubkeyTable) (bs : List Byte) {j : Nat} (h : 8 * j + 8 ≤ bs.length) :
    transformBlocks t (bs.take (8 * (j + 1))) =
      transformBlocks t (bs.take (8 * j)) ++ (bytesOfBlock (transform t (blockOfBytes (blockAt bs j h)))).toList := by
  have hblock := transformBlocks_block t (blockAt bs j h) []
  rw [transformBlocks_nil, List.append_nil, List.append_nil] at hblock
  rw [Nat.mul_succ, List.take_add, ← toList_blockAt bs h, transformBlocks_append t _ (length_take_blocks (by omega)), hblock]

/-- Block `j` of the result is block `j` of the sequence, transformed (R230). -/
theorem transformBlocks_blockAt (t : SubkeyTable) (bs : List Byte) {j : Nat} (h : 8 * j + 8 ≤ bs.length) :
    ((transformBlocks t bs).drop (8 * j)).take 8 = (bytesOfBlock (transform t (blockOfBytes (blockAt bs j h)))).toList := by
  have hle : 8 * j ≤ bs.length := by omega
  have hsplit : transformBlocks t bs = transformBlocks t (bs.take (8 * j)) ++ transformBlocks t (bs.drop (8 * j)) := by
    rw [← transformBlocks_append t _ (length_take_blocks hle), List.take_append_drop]
  rw [hsplit, List.drop_left' (length_transformBlocks_take t hle), drop_eq_blockAt_append bs h, transformBlocks_block,
    List.take_left' Vector.length_toList]

theorem transformBlocks_deriveDecryptionKeys_transformBlocks (ek : SubkeyTable) {bs : List Byte} (h : bs.length % 8 = 0) :
    transformBlocks (deriveDecryptionKeys ek) (transformBlocks ek bs) = bs := by
  obtain ⟨blocks, rfl⟩ := exists_blocks h
  clear h
  induction blocks with
  | nil => rfl
  | cons v blocks ih =>
    rw [List.flatMap_cons, transformBlocks_block, transformBlocks_block, blockOfBytes_bytesOfBlock,
      transform_deriveDecryptionKeys_transform, bytesOfBlock_blockOfBytes, ih]

/-! ## Encryption and decryption of byte sequences -/

theorem length_pad_mod_eight (bs : List Byte) : (pad bs).length % 8 = 0 := by
  rw [length_pad]
  omega

theorem encryptBytes_of_ne_nil (ek : SubkeyTable) {bs : List Byte} (h : bs ≠ []) :
    encryptBytes ek bs = transformBlocks ek (pad bs) := if_neg h

/-- Settles O42: the padded input is whole blocks. -/
theorem encryptBytesBlockByBlock : Obligations.EncryptBytesBlockByBlock := by
  refine fun ek bs => ⟨rfl, fun hne => ⟨?_, fun j hj => ⟨length_pad bs, ?_⟩⟩⟩
  · rw [encryptBytes_length ek hne, add_padCount]
  · rw [encryptBytes_of_ne_nil ek hne]
    exact transformBlocks_blockAt ek (pad bs) (by rw [length_pad]; omega)

/-- Decryption succeeds on whole blocks, at least one, whose transform is validly padded (R232). -/
theorem decryptBytes_eq_ok_iff {dk : SubkeyTable} {cs out : List Byte} : decryptBytes dk cs = .ok out ↔
    cs.length ≠ 0 ∧ cs.length % 8 = 0 ∧ unpad (transformBlocks dk cs) = some out := by
  unfold decryptBytes
  split
  · next h => exact ⟨nofun, fun ⟨h0, h8, _⟩ => absurd h (by omega)⟩
  · next h =>
    obtain ⟨h0, h8⟩ := not_or.mp h
    cases unpad (transformBlocks dk cs) with
    | none => simp
    | some bs => simp [h0, not_not.mp h8]

/-- The round trip in bytes (R234). -/
theorem decryptBytes_encryptBytes (ek : SubkeyTable) {bs : List Byte} (h : bs ≠ []) :
    decryptBytes (deriveDecryptionKeys ek) (encryptBytes ek bs) = .ok bs := by
  have hlen : (encryptBytes ek bs).length = 8 * (bs.length / 8 + 1) := by rw [encryptBytes_length ek h, add_padCount]
  refine decryptBytes_eq_ok_iff.mpr ⟨by omega, by omega, ?_⟩
  rw [encryptBytes_of_ne_nil ek h, transformBlocks_deriveDecryptionKeys_transformBlocks ek (length_pad_mod_eight bs), unpad_pad]

end Sys2Proof.Machine
end

section
/-! PROOF. ENC and DEC (44_cipher_facade.md R231, R233, R234, R240): each of their endings as an exact next state, and the
message a success leaves. What ENC leaves is a message that DEC decrypts. -/

namespace Sys2Proof.Machine

/-- Both commands write `M` from its start and then set `MLEN` inside what they wrote. -/
theorem State.message_writeMessage_setMlen (s : State) {bs : List Byte} {n : Nat} (hn : n ≤ bs.length) (h : n < 2 ^ 32) :
    ((s.writeMessage 0 bs).setMlen n).message = bs.take n := by
  have hmlen : (BitVec.ofNat 32 n).toNat = n := by rw [BitVec.toNat_ofNat, Nat.mod_eq_of_lt h]
  obtain ⟨k, hk⟩ := Nat.exists_eq_add_of_le hn
  have htake := congrArg (List.take n) (Memory.readRange_writeRange (Config.freeMessageByte s.resets) s.m 0 bs)
  rw [hk, Memory.readRange_append, List.take_left' (Memory.readRange_length _ _ _ _)] at htake
  rw [State.message, State.setMlen_mlen, hmlen]
  exact htake

/-- The statements name the places of a frame from `ERR` on, `Spec.writes` to `ERR`. -/
theorem SameOutside.reverse {A B C : Loc → Prop} {s t : State} (h : SameOutside (fun loc => A loc ∨ B loc ∨ C loc) s t) :
    SameOutside (fun loc => C loc ∨ B loc ∨ A loc) s t := by
  refine h.mono fun loc hw => ?_
  rcases hw with ha | hb | hc
  · exact .inr (.inr ha)
  · exact .inr (.inl hb)
  · exact .inl hc

/-! ## ENC -/

/-- The state ENC leaves when there is a message and its padded form fits (R231). -/
def State.encrypted (s : State) : State :=
  ((s.writeMessage 0 (encryptBytes s.ek s.message)).setMlen (s.mlen.toNat + padCount s.mlen.toNat)).done

theorem exec_enc_of_le {s : State} (hk : s.ekv = true) (h0 : s.mlen.toNat ≠ 0)
    (hcap : s.mlen.toNat + padCount s.mlen.toNat ≤ s.cfg.mcap) : exec .enc s = .next s.encrypted := by
  rcases execEnc_cases s with ⟨hno, -⟩ | ⟨-, hlt, -⟩ | ⟨-, hempty, -⟩ | ⟨-, -, -, h⟩
  · simp [hk] at hno
  · omega
  · exact absurd hempty h0
  · exact h

theorem exec_enc_of_empty {s : State} (hk : s.ekv = true) (h0 : s.mlen.toNat = 0) : exec .enc s = .next s.done := by
  rcases execEnc_cases s with ⟨hno, -⟩ | ⟨-, hlt, -⟩ | ⟨-, -, h⟩ | ⟨-, hne, -⟩
  · simp [hk] at hno
  · omega
  · exact h
  · exact absurd h0 hne

theorem exec_enc_of_not_ekv {s : State} (hk : s.ekv = false) : exec .enc s = .next (s.raise .noKey) := by
  rcases execEnc_cases s with ⟨-, h⟩ | ⟨hv, -⟩ | ⟨hv, -⟩ | ⟨hv, -⟩
  · exact h
  all_goals simp [hk] at hv

theorem exec_enc_of_lt {s : State} (hk : s.ekv = true) (h0 : s.mlen.toNat ≠ 0)
    (hcap : s.cfg.mcap < s.mlen.toNat + padCount s.mlen.toNat) : exec .enc s = .next (s.raise .capacity) := by
  rcases execEnc_cases s with ⟨hno, -⟩ | ⟨-, -, h⟩ | ⟨-, hempty, -⟩ | ⟨-, -, hle, -⟩
  · simp [hk] at hno
  · exact h
  · exact absurd hempty h0
  · omega

theorem State.encrypted_mlen {s : State} (h : s.mlen.toNat + padCount s.mlen.toNat < 2 ^ 32) :
    s.encrypted.mlen.toNat = s.mlen.toNat + padCount s.mlen.toNat := by
  rw [State.encrypted, State.done_mlen, State.setMlen_mlen, BitVec.toNat_ofNat, Nat.mod_eq_of_lt h]

theorem State.encrypted_message {s : State} (h0 : s.mlen.toNat ≠ 0) (h : s.mlen.toNat + padCount s.mlen.toNat < 2 ^ 32) :
    s.encrypted.message = encryptBytes s.ek s.message := by
  have hlen := encryptBytes_message_length h0
  rw [State.encrypted, State.done_message, State.message_writeMessage_setMlen s hlen.ge h, ← hlen, List.take_length]

/-- Settles O43: the four endings of ENC, and the frame of the one that writes. -/
theorem encEncryptsInPlace : Obligations.EncEncryptsInPlace := by
  refine ⟨rfl, fun s hwf hk h1 hcap => ?_, fun s hk h0 => exec_enc_of_empty hk (by rw [h0]; rfl),
    fun s => exec_enc_of_not_ekv, fun s hk h0 hcap => exec_enc_of_lt hk (fun h => h0 (BitVec.eq_of_toNat_eq h)) hcap⟩
  obtain ⟨-, -, hmcap⟩ := hwf
  have hlt : s.mlen.toNat + padCount s.mlen.toNat < 2 ^ 32 := Nat.lt_of_le_of_lt hcap hmcap
  have h0 : s.mlen.toNat ≠ 0 := by omega
  have hexec := exec_enc_of_le hk h0 hcap
  exact ⟨s.encrypted, hexec, rfl, State.encrypted_mlen hlt, State.encrypted_message h0 hlt,
    (exec_sameOutside hexec).reverse⟩

/-! ## DEC -/

/-- The state DEC leaves when `n` of the decrypted bytes are no padding (R233). -/
def State.decrypted (s : State) (n : Nat) : State := ((s.writeMessage 0 (transformBlocks s.dk s.message)).setMlen n).done

theorem exec_dec_of_not_dkv {s : State} (hk : s.dkv = false) : exec .dec s = .next (s.raise .noKey) := by
  rcases execDec_cases s with ⟨-, h⟩ | ⟨hv, -⟩ | ⟨hv, -⟩ | ⟨hv, -⟩ | ⟨hv, -⟩
  · exact h
  all_goals simp [hk] at hv

theorem exec_dec_of_lt {s : State} (hk : s.dkv = true) (hcap : s.cfg.mcap < s.mlen.toNat) :
    exec .dec s = .next (s.raise .capacity) := by
  rcases execDec_cases s with ⟨hno, -⟩ | ⟨-, -, h⟩ | ⟨-, hle, -⟩ | ⟨-, hle, -⟩ | ⟨-, hle, -⟩
  · simp [hk] at hno
  · exact h
  all_goals omega

theorem exec_dec_of_not_blocks {s : State} (hk : s.dkv = true) (hcap : s.mlen.toNat ≤ s.cfg.mcap)
    (hlen : s.mlen.toNat = 0 ∨ s.mlen.toNat % 8 ≠ 0) : exec .dec s = .next (s.raise .invalidBlockLength) := by
  rcases execDec_cases s with ⟨hno, -⟩ | ⟨-, hlt, -⟩ | ⟨-, -, -, h⟩ | ⟨-, -, h0, h8, -⟩ | ⟨-, -, h0, h8, -⟩
  · simp [hk] at hno
  · omega
  · exact h
  all_goals omega

section Blocks

variable {s : State} (hk : s.dkv = true) (hcap : s.mlen.toNat ≤ s.cfg.mcap) (h0 : s.mlen.toNat ≠ 0)
  (h8 : s.mlen.toNat % 8 = 0)

include hk hcap h0 h8

theorem exec_dec_of_none (hp : paddingCount (transformBlocks s.dk s.message) = none) :
    exec .dec s = .next (s.raise .invalidPadding) := by
  rcases execDec_cases s with
    ⟨hno, -⟩ | ⟨-, hlt, -⟩ | ⟨-, -, hlen, -⟩ | ⟨-, -, -, -, -, h⟩ | ⟨-, -, -, -, k, hsome, -⟩
  · simp [hk] at hno
  · omega
  · omega
  · exact h
  · simp [hp] at hsome

theorem exec_dec_of_some {n : Nat} (hp : paddingCount (transformBlocks s.dk s.message) = some n) :
    exec .dec s = .next (s.decrypted (s.mlen.toNat - n)) := by
  rcases execDec_cases s with
    ⟨hno, -⟩ | ⟨-, hlt, -⟩ | ⟨-, -, hlen, -⟩ | ⟨-, -, -, -, hnone, -⟩ | ⟨-, -, -, -, k, hsome, h⟩
  · simp [hk] at hno
  · omega
  · omega
  · simp [hp] at hnone
  · rw [hp] at hsome
    cases hsome
    exact h

end Blocks

section Success

variable {s : State} {out : List Byte} (h : decryptBytes s.dk s.message = .ok out)

include h

/-- The decrypted bytes are `decryptBytes` of the message and a padding behind it. -/
theorem exists_transformBlocks_eq_append_padding : s.mlen.toNat ≠ 0 ∧ s.mlen.toNat % 8 = 0 ∧
    ∃ n, 1 ≤ n ∧ n ≤ 8 ∧ out.length + n = s.mlen.toNat ∧ transformBlocks s.dk s.message = out ++ padding n := by
  obtain ⟨h0, h8, hunpad⟩ := decryptBytes_eq_ok_iff.mp h
  obtain ⟨n, h1, hn, hp⟩ := unpad_eq_some_iff.mp hunpad
  have hlen := transformBlocks_length s.dk s.message h8
  rw [hp, List.length_append, padding_length, s.message_length] at hlen
  rw [s.message_length] at h0 h8
  exact ⟨h0, h8, n, h1, hn, hlen, hp⟩

theorem exec_dec_of_decryptBytes (hk : s.dkv = true) (hcap : s.mlen.toNat ≤ s.cfg.mcap) :
    exec .dec s = .next (s.decrypted out.length) := by
  obtain ⟨h0, h8, n, h1, hn, hlen, hp⟩ := exists_transformBlocks_eq_append_padding h
  have hcount : paddingCount (transformBlocks s.dk s.message) = some n := by rw [hp, paddingCount_append_padding out h1 hn]
  rw [exec_dec_of_some hk hcap h0 h8 hcount, ← hlen, Nat.add_sub_cancel]

theorem State.decrypted_mlen : (s.decrypted out.length).mlen.toNat = out.length := by
  obtain ⟨-, -, n, -, -, hlen, -⟩ := exists_transformBlocks_eq_append_padding h
  rw [State.decrypted, State.done_mlen, State.setMlen_mlen, BitVec.toNat_ofNat, Nat.mod_eq_of_lt (by omega)]

theorem State.decrypted_message : (s.decrypted out.length).message = out := by
  obtain ⟨-, -, n, -, -, hlen, hp⟩ := exists_transformBlocks_eq_append_padding h
  rw [State.decrypted, State.done_message, hp,
    State.message_writeMessage_setMlen s (by rw [List.length_append]; omega) (by omega), List.take_left]

end Success

theorem State.decrypted_messageByte (s : State) (n : Nat) {a : Nat} (h : a < (transformBlocks s.dk s.message).length) :
    (s.decrypted n).messageByte a = (transformBlocks s.dk s.message)[a] := by
  rw [State.decrypted, State.done_messageByte, State.setMlen_messageByte, State.messageByte_writeMessage,
    if_pos (Nat.zero_le a), Nat.sub_zero, List.getD_eq_getElem _ _ h]

/-- Settles O44: the five endings of DEC, and the frame of the one that writes. -/
theorem decDecryptsInPlace : Obligations.DecDecryptsInPlace := by
  refine ⟨rfl, fun s out hk hcap hout => ?_, fun s => exec_dec_of_not_dkv, fun s => exec_dec_of_lt,
    fun s => exec_dec_of_not_blocks, fun s hk hcap h0 h8 hp => exec_dec_of_none hk hcap h0 h8 (Option.map_eq_none_iff.mp hp)⟩
  have hexec := exec_dec_of_decryptBytes hout hk hcap
  exact ⟨s.decrypted out.length, hexec, rfl, State.decrypted_mlen hout, State.decrypted_message hout,
    fun a => s.decrypted_messageByte _, (exec_sameOutside hexec).reverse⟩

/-! ## ENC and then DEC -/

theorem State.message_ne_nil {s : State} (h : s.mlen.toNat ≠ 0) : s.message ≠ [] := by
  rwa [← List.length_pos_iff, s.message_length, Nat.pos_iff_ne_zero]

/-- Settles O45: ENC keeps both tables and the valid bits, and leaves a message that decrypts to the old one. -/
theorem decryptionInvertsEncryption : Obligations.DecryptionInvertsEncryption := by
  refine ⟨fun ek bs => decryptBytes_encryptBytes ek, fun s hwf hek hdk htable h1 hcap => ?_⟩
  rw [← add_padCount] at hcap
  obtain ⟨-, -, hmcap⟩ := hwf
  have hlt := Nat.lt_of_le_of_lt hcap hmcap
  have h0 : s.mlen.toNat ≠ 0 := by omega
  have hout : decryptBytes s.encrypted.dk s.encrypted.message = .ok s.message := by
    rw [State.encrypted_message h0 hlt, ← decryptBytes_encryptBytes s.ek (State.message_ne_nil h0), ← htable]
    rfl
  refine ⟨s.encrypted, s.encrypted.decrypted s.message.length, exec_enc_of_le hek h0 hcap, rfl,
    exec_dec_of_decryptBytes hout hdk ?_, rfl, BitVec.eq_of_toNat_eq ?_, State.decrypted_message hout⟩
  · rw [State.encrypted_mlen hlt]
    exact hcap
  · rw [State.decrypted_mlen hout, s.message_length]

/-- Settles O46: ENC has nothing to pad in the empty message, and DEC wants a block. -/
theorem emptyMessageDoesNotRoundTrip : Obligations.EmptyMessageDoesNotRoundTrip := by
  refine ⟨fun ek dk => ⟨rfl, rfl⟩, fun s hek hdk h0 => ⟨exec_enc_of_empty hek (by rw [h0]; rfl), ?_⟩,
    fun ek bs hne => ?_⟩
  · have hlen : s.done.mlen.toNat = 0 := by rw [State.done_mlen, h0]; rfl
    exact exec_dec_of_not_blocks (s := s.done) hdk (by rw [hlen]; exact Nat.zero_le _) (.inl hlen)
  · have hpos := (padCount_pos bs.length).1
    rw [← List.length_pos_iff, encryptBytes_length ek hne]
    omega

end Sys2Proof.Machine
end

section
/-! PROOF. ENC by its parts (44_cipher_facade.md R239). One block by hand writes its transform at its place, so after `k` blocks
the first `8 * k` bytes are those of the padded message transformed (`ByHand`); the loop is an induction on `k`. ENC writes over
the old message what the loop writes over the padded one, and the padding lies in the range both write. -/

namespace Sys2Proof.Machine

theorem Memory.writeRange_append (b : Memory) (a : Nat) (bs cs : List Byte) :
    Memory.writeRange b a (bs ++ cs) = Memory.writeRange (Memory.writeRange b a bs) (a + bs.length) cs := by
  induction bs generalizing b a with
  | nil => rfl
  | cons v vs ih =>
    have hshift : a + 1 + vs.length = a + (vs.length + 1) := by omega
    rw [List.cons_append, Memory.writeRange, ih, hshift]
    rfl

/-! ## One block -/

/-- Block `j` of the message buffer, transformed under `EK`. -/
def State.encryptedBlock (s : State) (j : Nat) : Block :=
  transform s.ek (blockOfBytes (Vector.ofFn fun i : Fin 8 => s.messageByte (8 * j + i.val)))

/-- What one block by hand leaves: the transformed block in its place in `M`, and in the registers that worked on it. -/
def State.blockByHand (s : State) (j : Nat) : State :=
  ((s.setBlock (s.encryptedBlock j)).setBB (bytesOfBlock (s.encryptedBlock j))).done.writeMessage (8 * j)
    (bytesOfBlock (s.encryptedBlock j)).toList

theorem runCommands_b2w_xformE_w2b {s : State} (hk : s.ekv = true) : runCommands [.b2w, .xformE, .w2b] s =
    .next ((s.setBlock (transform s.ek (blockOfBytes s.bb))).setBB
      (bytesOfBlock (transform s.ek (blockOfBytes s.bb)))).done := by
  have hxform : exec .xformE (s.setBlock (blockOfBytes s.bb)).done =
      .next ((s.setBlock (blockOfBytes s.bb)).done.setBlock (transform s.ek (blockOfBytes s.bb))).done :=
    exec_xformCommand_of_valid (t := .e) hk
  simp only [runCommands, exec_b2w, hxform, exec_w2b, State.done_block, State.setBlock_block]
  simp only [State.setBlock, State.setBB, State.done, State.setErr]

theorem encryptBlockByHand_eq {s : State} (hk : s.ekv = true) (j : Nat) :
    Spec.encryptBlockByHand s j = some (s.blockByHand j) := by
  have hrun := runCommands_b2w_xformE_w2b (s := s.setBB (Vector.ofFn fun i : Fin 8 => s.messageByte (8 * j + i.val))) hk
  rw [State.setBB_bb, State.setBB_ek] at hrun
  rw [Spec.encryptBlockByHand, State.blockByHand, State.encryptedBlock, ← State.setBB, hrun]
  rfl

/-! ## The blocks in order -/

/-- The state `v` after the first `k` blocks of the message of `p` by hand. -/
structure ByHand (p : State) (k : Nat) (v : State) : Prop where
  ek     : v.ek = p.ek
  stat   : v.stat = p.stat
  mlen   : v.mlen = p.mlen
  resets : v.resets = p.resets
  m      : v.m = Memory.writeRange p.m 0 (transformBlocks p.ek (p.message.take (8 * k)))

theorem ByHand.start (p : State) : ByHand p 0 p := ⟨rfl, rfl, rfl, rfl, rfl⟩

/-- A block still to come reads as in the beginning. -/
theorem ByHand.encryptedBlock {p v : State} {k : Nat} (h : ByHand p k v) (hk : 8 * k + 8 ≤ p.message.length) :
    v.encryptedBlock k = transform p.ek (blockOfBytes (blockAt p.message k hk)) := by
  have hfirst := length_transformBlocks_take p.ek (bs := p.message) (j := k) (by omega)
  have hbyte (i : Fin 8) : v.messageByte (8 * k + i.val) = p.message[8 * k + i.val] := by
    rw [State.message_getElem, State.messageByte, h.m, h.resets]
    exact p.messageByte_writeMessage_outside 0 _ _ (.inr (by omega))
  simp only [State.encryptedBlock, blockAt, hbyte, h.ek]

theorem ByHand.next {p v : State} {k : Nat} (h : ByHand p k v) (hk : 8 * k + 8 ≤ p.message.length) :
    ByHand p (k + 1) (v.blockByHand k) where
  ek := h.ek
  stat := h.stat
  mlen := h.mlen
  resets := h.resets
  m := by
    rw [transformBlocks_take_succ p.ek p.message hk, Memory.writeRange_append, length_transformBlocks_take _ (by omega),
      Nat.zero_add, ← h.m, ← h.encryptedBlock hk]
    rfl

theorem exists_byHand {p : State} (hk : p.ekv = true) {k : Nat} (hlen : 8 * k ≤ p.message.length) :
    ∃ v, (List.range k).foldl (fun u j => u.bind fun v => Spec.encryptBlockByHand v j) (some p) = some v ∧ ByHand p k v := by
  induction k with
  | zero => exact ⟨p, rfl, .start p⟩
  | succ k ih =>
    obtain ⟨v, hfold, hv⟩ := ih (by omega)
    have hekv : v.ekv = true := by rw [State.ekv, hv.stat, ← State.ekv, hk]
    refine ⟨v.blockByHand k, ?_, hv.next (by omega)⟩
    rw [List.range_succ, List.foldl_append, hfold]
    exact encryptBlockByHand_eq hekv k

/-! ## The whole message -/

/-- PAD and then every block by hand is one write of the whole encryption over the padded message. -/
theorem exists_encryptByHand_eq {s : State} (hk : s.ekv = true)
    (hcap : s.mlen.toNat + padCount s.mlen.toNat ≤ s.cfg.mcap) (hlt : s.mlen.toNat + padCount s.mlen.toNat < 2 ^ 32) :
    ∃ u, Spec.encryptByHand s = some u ∧ u.mlen = s.padded.mlen ∧
      ∀ a, u.messageByte a = (s.padded.writeMessage 0 (transformBlocks s.ek (pad s.message))).messageByte a := by
  have hlen : 8 * (s.padded.mlen.toNat / 8) = s.padded.message.length := by
    rw [State.message_length, State.padded_mlen hlt, add_padCount]
    omega
  obtain ⟨u, hfold, hu⟩ := exists_byHand (p := s.padded) hk hlen.le
  refine ⟨u, ?_, hu.mlen, fun a => ?_⟩
  · rw [Spec.encryptByHand, exec_pad_of_le hcap]
    exact hfold
  · rw [State.messageByte, hu.m, hu.resets, hlen, List.take_length, State.padded_message hlt]
    rfl

/-- PAD writes inside the range that ENC writes. -/
theorem State.messageByte_encrypted_eq_padded {s : State} (h0 : s.mlen.toNat ≠ 0) (a : Nat) :
    s.encrypted.messageByte a = (s.padded.writeMessage 0 (encryptBytes s.ek s.message)).messageByte a := by
  have hlen := encryptBytes_message_length h0
  rw [State.encrypted, State.done_messageByte, State.setMlen_messageByte]
  by_cases ha : a < s.mlen.toNat + padCount s.mlen.toNat
  · simp only [State.messageByte_writeMessage, if_pos (Nat.zero_le a), Nat.sub_zero]
    rw [List.getD_eq_getElem _ _ (by omega), List.getD_eq_getElem _ _ (by omega)]
  · rw [State.messageByte_writeMessage_outside _ _ _ _ (.inr (by omega)),
      State.messageByte_writeMessage_outside _ _ _ _ (.inr (by omega)), State.padded, State.done_messageByte,
      State.setMlen_messageByte, State.messageByte_writeMessage_outside _ _ _ _ (.inr (by rw [padding_length]; omega))]

/-- Settles O47: both write the encryption of the message, the one over it and the other over the padded one. -/
theorem encEqualsItsParts : Obligations.EncEqualsItsParts := by
  intro s hwf hk h1 hcap
  obtain ⟨-, -, hmcap⟩ := hwf
  have hlt : s.mlen.toNat + padCount s.mlen.toNat < 2 ^ 32 := Nat.lt_of_le_of_lt hcap hmcap
  have h0 : s.mlen.toNat ≠ 0 := by omega
  obtain ⟨u, hhand, hmlen, hbytes⟩ := exists_encryptByHand_eq hk hcap hlt
  refine ⟨s.encrypted, u, exec_enc_of_le hk h0 hcap, hhand, hmlen.symm, fun a => ?_⟩
  rw [State.messageByte_encrypted_eq_padded h0, hbytes, encryptBytes_of_ne_nil s.ek (State.message_ne_nil h0)]

end Sys2Proof.Machine
end

section
/-! PROOF. The errors and their causes (60_exceptions.md R250 to R259, R272). `Fails` lists the causes of every error; a command
reports a code exactly when that error has a cause (`err_eq_code_iff`), so which code it reports, and which of several, is read
off the causes. -/

namespace Sys2Proof.Machine

/-! ## Missing tables -/

@[simp] theorem not_lacksKey_pad (s : State) : ¬ Spec.lacksKey .pad s := by simp [Spec.lacksKey, Spec.readsEK, Spec.readsDK]

@[simp] theorem not_lacksKey_unpad (s : State) : ¬ Spec.lacksKey .unpad s := by
  simp [Spec.lacksKey, Spec.readsEK, Spec.readsDK]

@[simp] theorem lacksKey_enc_iff {s : State} : Spec.lacksKey .enc s ↔ s.ekv = false := by
  simp [Spec.lacksKey, Spec.readsEK, Spec.readsDK]

@[simp] theorem lacksKey_dec_iff {s : State} : Spec.lacksKey .dec s ↔ s.dkv = false := by
  simp [Spec.lacksKey, Spec.readsEK, Spec.readsDK]

theorem exec_of_lacksKey {i : Instr} {s : State} (h : Spec.lacksKey i s) : exec i s = .next (s.raise .noKey) := by
  rcases h with ⟨hreads, hv⟩ | ⟨hreads, hv⟩
  · cases i with
    | kexpd => exact exec_kexpd_of_not_ekv hv
    | roundE | outxfE | xformE => exact congrArg Host.Outcome.next (s.blockCommand_noKey .e _ hv)
    | enc => exact exec_enc_of_not_ekv hv
    | _ => cases hreads
  · cases i with
    | roundD | outxfD | xformD => exact congrArg Host.Outcome.next (s.blockCommand_noKey .d _ hv)
    | dec => exact exec_dec_of_not_dkv hv
    | _ => cases hreads

/-! ## The causes -/

/-- When a command fails, and with which error: one constructor per cause of 60_exceptions.md R252 to R256, each with the tests
before it passed (R259) unless they raise the same error. -/
inductive Fails (s : State) : Instr → ErrorKind → Prop where
  | noKey {i : Instr} (hk : Spec.lacksKey i s) : Fails s i .noKey
  | capacity {i : Instr} (hm : Spec.usesMessage i = true) (hk : ¬ Spec.lacksKey i s) (hcap : s.cfg.mcap < s.mlen.toNat) :
    Fails s i .capacity
  | kexpe (hlen : s.klen ≠ 16) : Fails s .kexpe .invalidKeyLength
  | new (hlen : s.klen ≠ 16) : Fails s .new .invalidKeyLength
  | blockLength (hk : s.dkv = true) (hcap : s.mlen.toNat ≤ s.cfg.mcap) (hlen : s.mlen.toNat = 0 ∨ s.mlen.toNat % 8 ≠ 0) :
    Fails s .dec .invalidBlockLength
  | decPadding (hk : s.dkv = true) (hcap : s.mlen.toNat ≤ s.cfg.mcap) (h0 : s.mlen.toNat ≠ 0) (h8 : s.mlen.toNat % 8 = 0)
    (hp : paddingCount (transformBlocks s.dk s.message) = none) : Fails s .dec .invalidPadding
  | unpadPadding (hcap : s.mlen.toNat ≤ s.cfg.mcap) (hp : paddingCount s.message = none) : Fails s .unpad .invalidPadding
  | padCapacity (hcap : s.cfg.mcap < s.mlen.toNat + padCount s.mlen.toNat) : Fails s .pad .capacity
  | encCapacity (hk : s.ekv = true) (h0 : s.mlen.toNat ≠ 0) (hcap : s.cfg.mcap < s.mlen.toNat + padCount s.mlen.toNat) :
    Fails s .enc .capacity

theorem exec_of_lt {i : Instr} {s : State} (hm : Spec.usesMessage i = true) (hk : ¬ Spec.lacksKey i s)
    (hcap : s.cfg.mcap < s.mlen.toNat) : exec i s = .next (s.raise .capacity) := by
  cases i with
  | pad => exact exec_pad_of_lt (by omega)
  | unpad => exact exec_unpad_of_lt hcap
  | enc => exact exec_enc_of_lt (by simpa using hk) (by omega) (by omega)
  | dec => exact exec_dec_of_lt (by simpa using hk) hcap
  | _ => cases hm

theorem Fails.exec_eq {i : Instr} {s : State} {e : ErrorKind} (h : Fails s i e) : exec i s = .next (s.raise e) := by
  cases h with
  | noKey hk => exact exec_of_lacksKey hk
  | capacity hm hk hcap => exact exec_of_lt hm hk hcap
  | kexpe hlen => exact exec_kexpe_of_ne hlen
  | new hlen => exact exec_new_of_ne hlen
  | blockLength hk hcap hlen => exact exec_dec_of_not_blocks hk hcap hlen
  | decPadding hk hcap h0 h8 hp => exact exec_dec_of_none hk hcap h0 h8 hp
  | unpadPadding hcap hp => exact exec_unpad_of_none hcap hp
  | padCapacity hcap => exact exec_pad_of_lt hcap
  | encCapacity hk h0 hcap => exact exec_enc_of_lt hk h0 hcap

/-! ## No error without a cause -/

/-- An outcome of a command that has a cause for its error, or is `done`. -/
def FailsOrDone (i : Instr) (s : State) (o : Host.Outcome State Fault Refusal) : Prop :=
  (∃ e, Fails s i e ∧ o = .next (s.raise e)) ∨ ∃ u : State, o = .next u.done

theorem blockCommand_failsOrDone {i : Instr} (s : State) (t : TableSelect) (f : SubkeyTable → Block → Block)
    (hk : s.tableValid t = false → Spec.lacksKey i s) : FailsOrDone i s (.next (s.blockCommand t f)) := by
  rcases s.blockCommand_cases t f with ⟨hv, h⟩ | ⟨-, h⟩
  · exact .inl ⟨.noKey, .noKey (hk hv), by rw [h]⟩
  · exact .inr ⟨_, by rw [h]⟩

theorem exec_failsOrDone (i : Instr) (s : State) : FailsOrDone i s (exec i s) := by
  cases i with
  | mulmod | mulinv | b2w | w2b => exact .inr ⟨_, rfl⟩
  | pad =>
    rcases execPad_cases s with ⟨hcap, h⟩ | ⟨-, h⟩
    · exact .inl ⟨_, .padCapacity hcap, h⟩
    · exact .inr ⟨_, h⟩
  | unpad =>
    rcases execUnpad_cases s with ⟨hcap, h⟩ | ⟨hcap, hp, h⟩ | ⟨-, n, -, h⟩
    · exact .inl ⟨_, .capacity rfl (not_lacksKey_unpad s) hcap, h⟩
    · exact .inl ⟨_, .unpadPadding hcap hp, h⟩
    · exact .inr ⟨_, h⟩
  | kexpe =>
    rcases execKexpe_cases s with ⟨hlen, h⟩ | ⟨-, h⟩
    · exact .inl ⟨_, .kexpe hlen, h⟩
    · exact .inr ⟨_, h⟩
  | kexpd =>
    rcases execKexpd_cases s with ⟨hv, h⟩ | ⟨-, h⟩
    · exact .inl ⟨_, .noKey (.inl ⟨rfl, hv⟩), h⟩
    · exact .inr ⟨_, h⟩
  | new =>
    rcases execNew_cases s with ⟨hlen, h⟩ | ⟨-, h⟩
    · exact .inl ⟨_, .new hlen, h⟩
    · exact .inr ⟨_, h⟩
  | roundE | outxfE | xformE => exact blockCommand_failsOrDone s .e _ fun hv => .inl ⟨rfl, hv⟩
  | roundD | outxfD | xformD => exact blockCommand_failsOrDone s .d _ fun hv => .inr ⟨rfl, hv⟩
  | enc =>
    rcases execEnc_cases s with ⟨hv, h⟩ | ⟨hv, hlt | ⟨h0, hcap⟩, h⟩ | ⟨-, -, h⟩ | ⟨-, -, -, h⟩
    · exact .inl ⟨_, .noKey (lacksKey_enc_iff.mpr hv), h⟩
    · exact .inl ⟨_, .capacity rfl (by simp [hv]) hlt, h⟩
    · exact .inl ⟨_, .encCapacity hv h0 hcap, h⟩
    · exact .inr ⟨_, h⟩
    · exact .inr ⟨_, h⟩
  | dec =>
    rcases execDec_cases s with
      ⟨hv, h⟩ | ⟨hv, hlt, h⟩ | ⟨hv, hcap, hlen, h⟩ | ⟨hv, hcap, h0, h8, hp, h⟩ | ⟨-, -, -, -, n, -, h⟩
    · exact .inl ⟨_, .noKey (lacksKey_dec_iff.mpr hv), h⟩
    · exact .inl ⟨_, .capacity rfl (by simp [hv]) hlt, h⟩
    · exact .inl ⟨_, .blockLength hv hcap hlen, h⟩
    · exact .inl ⟨_, .decPadding hv hcap h0 h8 hp, h⟩
    · exact .inr ⟨_, h⟩

section Codes

variable {i : Instr} {s t : State} {e : ErrorKind} (h : exec i s = .next t)

include h

/-- The code a command leaves tells its error (60_exceptions.md R251). -/
theorem err_eq_code_iff : t.err = e.code ↔ Fails s i e := by
  constructor
  · intro herr
    rcases exec_failsOrDone i s with ⟨e', hfails, h'⟩ | ⟨u, h'⟩
    · obtain rfl : t = s.raise e' := Host.Outcome.next.inj (h.symm.trans h')
      exact e'.code_injective e herr ▸ hfails
    · obtain rfl : t = u.done := Host.Outcome.next.inj (h.symm.trans h')
      exact absurd herr.symm e.code_ne_ok
  · intro hfails
    obtain rfl : t = s.raise e := Host.Outcome.next.inj (h.symm.trans hfails.exec_eq)
    rfl

theorem eq_raise_of_err_eq_code (herr : t.err = e.code) : t = s.raise e :=
  Host.Outcome.next.inj (h.symm.trans ((err_eq_code_iff h).mp herr).exec_eq)

end Codes

/-! ## Bytes that end in no valid padding -/

theorem paddingCount_eq_none_iff_validPadding {bs : List Byte} {byte : Nat → Byte}
    (hbyte : ∀ (a : Nat) (h : a < bs.length), bs[a] = byte a) :
    paddingCount bs = none ↔ ¬ Spec.ValidPadding byte bs.length := by
  rw [Option.eq_none_iff_forall_ne_some]
  constructor
  · exact fun hnone hvalid => hnone _ ((paddingCount_eq_some_iff_validPadding hbyte).mpr ⟨hvalid, rfl⟩)
  · exact fun hinvalid n hn => hinvalid ((paddingCount_eq_some_iff_validPadding hbyte).mp hn).1

theorem paddingCount_message_eq_none_iff {s : State} :
    paddingCount s.message = none ↔ ¬ Spec.ValidPadding s.messageByte s.mlen.toNat := by
  rw [paddingCount_eq_none_iff_validPadding s.message_getElem, s.message_length]

/-- DEC tests the decrypted bytes, which are as many as the message has. -/
theorem paddingCount_transformBlocks_eq_none_iff {s : State} (h8 : s.mlen.toNat % 8 = 0) :
    paddingCount (transformBlocks s.dk s.message) = none ↔
      ¬ Spec.ValidPadding (fun a => (transformBlocks s.dk s.message).getD a 0) s.mlen.toNat := by
  have hlen : (transformBlocks s.dk s.message).length = s.mlen.toNat := by
    rw [transformBlocks_length s.dk _ (by rwa [s.message_length]), s.message_length]
  rw [paddingCount_eq_none_iff_validPadding fun a ha => (List.getD_eq_getElem _ 0 ha).symm, hlen]

/-! ## The causes, error by error -/

theorem State.mlen_ne_zero_iff {s : State} : s.mlen ≠ 0 ↔ s.mlen.toNat ≠ 0 := BitVec.toNat_ne

section Causes

variable {s : State} {i : Instr}

theorem fails_noKey_iff : Fails s i .noKey ↔ Spec.lacksKey i s := by
  constructor
  · intro h
    cases h with
    | noKey hk => exact hk
  · exact .noKey

theorem fails_capacity_iff : Fails s i .capacity ↔ Spec.usesMessage i = true ∧ ¬ Spec.lacksKey i s ∧
    (s.cfg.mcap < s.mlen.toNat ∨
      ((i = .pad ∨ (i = .enc ∧ s.mlen ≠ 0)) ∧ s.cfg.mcap < s.mlen.toNat + padCount s.mlen.toNat)) := by
  constructor
  · intro h
    cases h with
    | capacity hm hk hcap => exact ⟨hm, hk, .inl hcap⟩
    | padCapacity hcap => exact ⟨rfl, not_lacksKey_pad s, .inr ⟨.inl rfl, hcap⟩⟩
    | encCapacity hk h0 hcap => exact ⟨rfl, by simp [hk], .inr ⟨.inr ⟨rfl, State.mlen_ne_zero_iff.mpr h0⟩, hcap⟩⟩
  · rintro ⟨hm, hk, hcap | ⟨rfl | ⟨rfl, h0⟩, hcap⟩⟩
    · exact .capacity hm hk hcap
    · exact .padCapacity hcap
    · exact .encCapacity (by simpa using hk) (State.mlen_ne_zero_iff.mp h0) hcap

theorem fails_invalidBlockLength_iff : Fails s i .invalidBlockLength ↔
    i = .dec ∧ s.dkv = true ∧ s.mlen.toNat ≤ s.cfg.mcap ∧ (s.mlen.toNat = 0 ∨ s.mlen.toNat % 8 ≠ 0) := by
  constructor
  · intro h
    cases h with
    | blockLength hk hcap hlen => exact ⟨rfl, hk, hcap, hlen⟩
  · rintro ⟨rfl, hk, hcap, hlen⟩
    exact .blockLength hk hcap hlen

theorem fails_invalidPadding_iff : Fails s i .invalidPadding ↔ s.mlen.toNat ≤ s.cfg.mcap ∧
    ((i = .unpad ∧ ¬ Spec.ValidPadding s.messageByte s.mlen.toNat) ∨
     (i = .dec ∧ s.dkv = true ∧ s.mlen.toNat ≠ 0 ∧ s.mlen.toNat % 8 = 0 ∧
      ¬ Spec.ValidPadding (fun a => (transformBlocks s.dk s.message).getD a 0) s.mlen.toNat)) := by
  constructor
  · intro h
    cases h with
    | unpadPadding hcap hp => exact ⟨hcap, .inl ⟨rfl, paddingCount_message_eq_none_iff.mp hp⟩⟩
    | decPadding hk hcap h0 h8 hp =>
      exact ⟨hcap, .inr ⟨rfl, hk, h0, h8, (paddingCount_transformBlocks_eq_none_iff h8).mp hp⟩⟩
  · rintro ⟨hcap, ⟨rfl, hp⟩ | ⟨rfl, hk, h0, h8, hp⟩⟩
    · exact .unpadPadding hcap (paddingCount_message_eq_none_iff.mpr hp)
    · exact .decPadding hk hcap h0 h8 ((paddingCount_transformBlocks_eq_none_iff h8).mpr hp)

end Causes

/-! ## The statements -/

/-- Settles O48, from the two endings of a command; no error has the code of success. -/
theorem everyCommandSucceedsOrOnlySetsErr : Obligations.EveryCommandSucceedsOrOnlySetsErr := by
  intro i s
  obtain ⟨t, h⟩ := exec_answers i s
  refine ⟨t, h, ?_⟩
  rcases exec_cases h with ⟨e, he, rfl⟩ | ⟨u, -, rfl⟩
  · exact .inr ⟨e, he, rfl, e.code_ne_ok⟩
  · exact .inl ⟨u.done_err, fun ⟨e, he⟩ => e.code_ne_ok he.symm⟩

/-- Settles O50: a missing table is the one cause of code 4, and KEXPE takes back `DKV`. -/
theorem noKeyExactly : Obligations.NoKeyExactly := by
  refine ⟨fun i s t h => (err_eq_code_iff (e := .noKey) h).trans fails_noKey_iff, rfl, rfl, fun s t h herr => ?_⟩
  rcases exec_cases h with ⟨e, -, rfl⟩ | ⟨u, hu, rfl⟩
  · exact absurd herr e.code_ne_ok
  · cases hu with
    | kexpe => simp

/-- Settles O51, by the causes of code 5. -/
theorem capacityExactly : Obligations.CapacityExactly :=
  fun _ _ _ h => (err_eq_code_iff (e := .capacity) h).trans fails_capacity_iff

/-- Settles O52, by the cause of code 2. -/
theorem invalidBlockLengthExactly : Obligations.InvalidBlockLengthExactly :=
  fun _ _ _ h => (err_eq_code_iff (e := .invalidBlockLength) h).trans fails_invalidBlockLength_iff

/-- Settles O53, by the causes of code 3. -/
theorem invalidPaddingExactly : Obligations.InvalidPaddingExactly :=
  fun _ _ _ h => (err_eq_code_iff (e := .invalidPadding) h).trans fails_invalidPadding_iff

/-- Settles O54, clause by clause: each names a cause, and a cause decides the code. -/
theorem errorPriority : Obligations.ErrorPriority := by
  refine ⟨?_, fun i s t h => ?_⟩
  · rintro c s t ⟨e, hd⟩ h
    obtain rfl := Host.Outcome.next.inj (h.symm.trans (issueCommand_of_decode_error hd s))
    rfl
  have code {e : ErrorKind} (hfails : Fails s i e) : t.err = e.code := (err_eq_code_iff h).mpr hfails
  refine ⟨fun hk => code (.noKey hk), fun hk hm hcap => code (.capacity hm hk hcap), ?_, ?_, ?_, ?_, ?_⟩
  · rintro (rfl | rfl) hlen
    · exact code (.kexpe hlen)
    · exact code (.new hlen)
  · rintro rfl hk hcap hlen
    exact code (.blockLength hk hcap hlen)
  · rintro rfl hk hcap h0 h8 hp
    exact code (.decPadding hk hcap h0 h8 (Option.map_eq_none_iff.mp hp))
  · rintro rfl hk h0
    obtain rfl := Host.Outcome.next.inj (h.symm.trans (exec_enc_of_empty hk (by rw [h0]; rfl)))
    rfl
  · rintro (rfl | ⟨rfl, hk, h0⟩) - hcap
    · exact code (.padCapacity hcap)
    · exact code (.encCapacity hk (State.mlen_ne_zero_iff.mp h0) hcap)

/-- Settles O55: a failure leaves the state it was issued in but for `ERR`, so two failures differ where these states do. -/
theorem failedPaddingExposesNothing : Obligations.FailedPaddingExposesNothing := by
  refine ⟨fun i s t _ h herr => ⟨herr, exec_error_sameOutside h (by rw [herr]; decide)⟩, fun s t t' dk' h h' herr herr' => ?_⟩
  rw [eq_raise_of_err_eq_code (e := .invalidPadding) h herr, eq_raise_of_err_eq_code (e := .invalidPadding) h' herr']
  rfl

end Sys2Proof.Machine
end

section
/-! PROOF. The reset event gives every place its reset value (70_reset_and_hazards.md R290); the bytes of `M` and `KIN` have none. -/

namespace Sys2Proof.Machine

/-- What differs from the reset state is the reset count and `MCAP`, and of all places only `M` and `KIN` are read by these. -/
theorem State.resetEvent_hostLoad (s : State) {loc : Loc} (hm : ∀ a, loc ≠ .m a) (hkin : ∀ a, loc ≠ .kin a) :
    s.resetEvent.hostLoad loc = State.reset.hostLoad loc := by
  cases loc with
  | m a => exact absurd rfl (hm a)
  | kin a => exact absurd rfl (hkin a)
  | _ => rfl

/-- Settles O10: the step is the reset event on the state with the action taken off the list. -/
theorem resetEventGivesResetValues : Obligations.ResetEventGivesResetValues :=
  fun s rest ha => ⟨State.resetEvent { s with actions := rest }, step_of_actions ha, rfl, rfl, rfl,
    fun _ hm hkin => State.resetEvent_hostLoad _ hm hkin⟩

end Sys2Proof.Machine
end
